-- ==== Sys2Proof/Word.lean ====
section
/-! DEFINITION. The fixed-width values of the CAN-TS protocol engine (spec/00_scope.md R10, R16, R17) and the one
ceiling division the spec uses. Every value is unsigned; arithmetic on `BitVec n` wraps modulo `2 ^ n` (R12, R17). -/

namespace Sys2Proof

/-- `u8`: node addresses, channels, retry counters and data bytes (R10, R12). -/
abbrev Byte := BitVec 8

/-- `u32`: timer periods in milliseconds and the identifier field of the link-interface record (R10). -/
abbrev Word32 := BitVec 32

/-- `u64`: remote start addresses and the time-sync time (R10, R13). -/
abbrev Word64 := BitVec 64

/-- The 10-bit command field of an identifier (R10, R112). -/
abbrev Command := BitVec 10

/-- The 6-bit `seq_or_num` sub-field of a block command (R10, R112). -/
abbrev Seq := BitVec 6

/-- `ceil(n / 8)` (R17). -/
def ceilDiv8 (n : Nat) : Nat := (n + 7) / 8

end Sys2Proof
end

