-- ==== Sys2Proof/Syntax.lean ====
section
/-! DEFINITION. The values that cross the engine's ports and the instruction type: one constructor of `Instr` for each row
of spec/opcode_table.json (29 frame kinds, 11 host commands, 8 input events). -/

namespace Sys2Proof

/-- The two buses; Nominal = 0, Redundant = 1 (R33). -/
inductive Bus where
  | nominal
  | redundant
  deriving DecidableEq, Repr

/-- Why a link driver could not send a frame it had accepted (R298, R310). -/
inductive SendErrorReason where
  | writeError
  | dongleBusy
  deriving DecidableEq, Repr

/-- The three notifications of a link driver (R310): a frame came in, an accepted frame was sent, or it was not. -/
inductive Notice where
  | received
  | sent
  | sendError (reason : SendErrorReason)
  deriving DecidableEq, Repr

/-- Where a frame met the engine: the bus of the notification and its kind. -/
structure Port where
  bus : Bus
  notice : Notice
  deriving DecidableEq, Repr

/-- The link-interface record of a CAN frame (R110). Its data field has 0 to 8 bytes; `CanFrame.wellFormed` checks it. -/
structure CanFrame where
  id : Word32
  extid : Bool
  rtr : Bool
  data : List Byte
  deriving DecidableEq, Repr

/-- A logical CAN-TS frame (R60). -/
structure LogicalFrame where
  toAddress : Byte
  transferType : BitVec 3
  fromAddress : Byte
  command : Command
  data : List Byte
  deriving DecidableEq, Repr

/-- The transfer types (R60); 6 and 7 are reserved (R130). -/
inductive TransferType where
  | timeSync | unsolicited | telecommand | telemetry | setBlock | getBlock | reserved6 | reserved7
  deriving DecidableEq, Repr

/-- Frame-type codes of CMD-TT (R113, R131). -/
inductive TtFrameType where
  | request | ack | nack | reserved3
  deriving DecidableEq, Repr

/-- Frame-type codes of CMD-BLK for SET_BLOCK (R114, R132). -/
inductive SbFrameType where
  | request | transfer | ack | abort | nack | reserved5 | status | report
  deriving DecidableEq, Repr

/-- Frame-type codes of CMD-BLK for GET_BLOCK (R115, R132). -/
inductive GbFrameType where
  | request | reserved1 | ack | abort | nack | reserved5 | start | transfer
  deriving DecidableEq, Repr

/-- What the decoder refuses, by name. -/
inductive DecodeError where
  /-- `extid = false`: an 11-bit identifier frame (R136). -/
  | standardIdentifier
  /-- `rtr = true`: a remote frame (R136). -/
  | remoteFrame
  /-- Type TIME_SYNC with a `to_address` other than 0x00: no row of R121 matches it (R121 (c), R295). -/
  | noFrameKind
  deriving DecidableEq, Repr

/-- Port name and baud rate of one bus, the arguments of a driver's `open` (R35, R521). -/
structure PortSettings where
  portName : String
  baud : Word32
  deriving DecidableEq, Repr

/-- The driver settings of Start, a tagged variant (R521); only the serial-bridge variant is accepted. -/
inductive Settings where
  | serial (nom red : PortSettings)
  | nonSerial
  deriving DecidableEq, Repr

/-- The instructions: frame kinds at a port (R121, R130 to R132), host commands (R6, R13) and input events (R585).
A frame kind keeps the sub-fields its handlers read; the bits R133 calls unused are not kept. -/
inductive Instr where
  -- telecommand frames
  | tcRequest (p : Port) (toAddr fromAddr ch : Byte) (data : List Byte)
  | tcAck (p : Port) (toAddr fromAddr ch : Byte) (data : List Byte)
  | tcNack (p : Port) (toAddr fromAddr ch : Byte) (data : List Byte)
  | tcReservedFt3 (p : Port) (toAddr fromAddr ch : Byte) (data : List Byte)
  -- telemetry frames
  | tmRequest (p : Port) (toAddr fromAddr ch : Byte) (data : List Byte)
  | tmAck (p : Port) (toAddr fromAddr ch : Byte) (data : List Byte)
  | tmNack (p : Port) (toAddr fromAddr ch : Byte) (data : List Byte)
  | tmReservedFt3 (p : Port) (toAddr fromAddr ch : Byte) (data : List Byte)
  -- set-block frames
  | sbRequest (p : Port) (toAddr fromAddr : Byte) (num : Seq) (data : List Byte)
  | sbTransfer (p : Port) (toAddr fromAddr : Byte) (seq : Seq) (data : List Byte)
  | sbAck (p : Port) (toAddr fromAddr : Byte) (num : Seq) (data : List Byte)
  | sbAbort (p : Port) (toAddr fromAddr : Byte) (num : Seq) (data : List Byte)
  | sbNack (p : Port) (toAddr fromAddr : Byte) (num : Seq) (data : List Byte)
  | sbReservedFt5 (p : Port) (toAddr fromAddr : Byte) (num : Seq) (data : List Byte)
  | sbStatus (p : Port) (toAddr fromAddr : Byte) (num : Seq) (data : List Byte)
  | sbReport (p : Port) (toAddr fromAddr : Byte) (done : Bool) (num : Seq) (data : List Byte)
  -- get-block frames
  | gbRequest (p : Port) (toAddr fromAddr : Byte) (num : Seq) (data : List Byte)
  | gbReservedFt1 (p : Port) (toAddr fromAddr : Byte) (num : Seq) (data : List Byte)
  | gbAck (p : Port) (toAddr fromAddr : Byte) (num : Seq) (data : List Byte)
  | gbAbort (p : Port) (toAddr fromAddr : Byte) (num : Seq) (data : List Byte)
  | gbNack (p : Port) (toAddr fromAddr : Byte) (num : Seq) (data : List Byte)
  | gbReservedFt5 (p : Port) (toAddr fromAddr : Byte) (num : Seq) (data : List Byte)
  | gbStart (p : Port) (toAddr fromAddr : Byte) (num : Seq) (data : List Byte)
  | gbTransfer (p : Port) (toAddr fromAddr : Byte) (seq : Seq) (data : List Byte)
  -- unsolicited, keep-alive and time-sync frames, and the reserved types
  | unsol (p : Port) (toAddr fromAddr ch : Byte) (data : List Byte)
  | keepalive (p : Port) (fromAddr ch : Byte) (data : List Byte)
  | timesync (p : Port) (fromAddr : Byte) (data : List Byte)
  | type6Reserved (p : Port) (toAddr fromAddr : Byte) (data : List Byte)
  | type7Reserved (p : Port) (toAddr fromAddr : Byte) (data : List Byte)
  -- host commands
  | start (addr : Byte) (timeoutMs : Word32) (settings : Settings)
  | stop
  | sendTc (addr ch : Byte) (data : List Byte) (retry : Byte)
  | receiveTm (addr ch retry : Byte)
  | sendBlock (addr : Byte) (startAddress : Word64) (data : List Byte) (retry : Byte) (reportDelayMs : Word32)
      (reportRetry : Byte)
  | receiveBlock (addr : Byte) (startAddress : Word64) (length : Nat) (retry startRetry : Byte)
  | sendTimeSync (time : Word64)
  | sendUnsolicited (addr ch : Byte) (data : List Byte)
  | canBusSwitch
  | getActiveBus
  | getAddress
  -- input events
  | frameReceived (bus : Bus) (frame : CanFrame)
  | frameSent (bus : Bus) (frame : CanFrame)
  | sendError (bus : Bus) (frame : CanFrame) (reason : SendErrorReason)
  | wdFireTc (addr ch : Byte)
  | wdFireTm (addr ch : Byte)
  | wdFireSb (addr : Byte)
  | wdFireGb (addr : Byte)
  | rdFireSb (addr : Byte)
  deriving DecidableEq, Repr

/-- `SendTC` with the default `retry = 0` (R13). -/
def Instr.sendTcDefault (addr ch : Byte) (data : List Byte) : Instr := .sendTc addr ch data 0

/-- `ReceiveTM` with the default `retry = 3` (R13). -/
def Instr.receiveTmDefault (addr ch : Byte) : Instr := .receiveTm addr ch 3

/-- `SendBlock` with the defaults `retry = 3, report_delay_ms = 20, report_retry = 3` (R13). -/
def Instr.sendBlockDefault (addr : Byte) (startAddress : Word64) (data : List Byte) : Instr :=
  .sendBlock addr startAddress data 3 20 3

/-- `ReceiveBlock` with the defaults `retry = 3, start_retry = 3` (R13). -/
def Instr.receiveBlockDefault (addr : Byte) (startAddress : Word64) (length : Nat) : Instr :=
  .receiveBlock addr startAddress length 3 3

end Sys2Proof
end

