-- ==== Sys2Proof/WellFormed.lean ====
section
/-! DEFINITION. Which instructions the link interface can carry at all: a data field has at most 8 bytes (R110, R164), and
a frame of type UNSOLICITED to 0x01 is a KEEPALIVE, not an UNSOL (R121 (a)). Host commands and timer fires have no ill
formed operands: what the engine rejects in them it rejects itself (R565). -/

namespace Sys2Proof

/-- A data field of 0 to 8 bytes (R110). -/
def dataFits (data : List Byte) : Bool := decide (data.length ≤ 8)

def CanFrame.wellFormed (c : CanFrame) : Bool := dataFits c.data

def Instr.wellFormed : Instr → Bool
  | .tcRequest _ _ _ _ d => dataFits d
  | .tcAck _ _ _ _ d => dataFits d
  | .tcNack _ _ _ _ d => dataFits d
  | .tcReservedFt3 _ _ _ _ d => dataFits d
  | .tmRequest _ _ _ _ d => dataFits d
  | .tmAck _ _ _ _ d => dataFits d
  | .tmNack _ _ _ _ d => dataFits d
  | .tmReservedFt3 _ _ _ _ d => dataFits d
  | .sbRequest _ _ _ _ d => dataFits d
  | .sbTransfer _ _ _ _ d => dataFits d
  | .sbAck _ _ _ _ d => dataFits d
  | .sbAbort _ _ _ _ d => dataFits d
  | .sbNack _ _ _ _ d => dataFits d
  | .sbReservedFt5 _ _ _ _ d => dataFits d
  | .sbStatus _ _ _ _ d => dataFits d
  | .sbReport _ _ _ _ _ d => dataFits d
  | .gbRequest _ _ _ _ d => dataFits d
  | .gbReservedFt1 _ _ _ _ d => dataFits d
  | .gbAck _ _ _ _ d => dataFits d
  | .gbAbort _ _ _ _ d => dataFits d
  | .gbNack _ _ _ _ d => dataFits d
  | .gbReservedFt5 _ _ _ _ d => dataFits d
  | .gbStart _ _ _ _ d => dataFits d
  | .gbTransfer _ _ _ _ d => dataFits d
  | .unsol _ toAddr _ _ d => dataFits d && toAddr != 0x01
  | .keepalive _ _ _ d => dataFits d
  | .timesync _ _ d => dataFits d
  | .type6Reserved _ _ _ d => dataFits d
  | .type7Reserved _ _ _ d => dataFits d
  | .start _ _ _ => true
  | .stop => true
  | .sendTc _ _ _ _ => true
  | .receiveTm _ _ _ => true
  | .sendBlock _ _ _ _ _ _ => true
  | .receiveBlock _ _ _ _ _ => true
  | .sendTimeSync _ => true
  | .sendUnsolicited _ _ _ => true
  | .canBusSwitch => true
  | .getActiveBus => true
  | .getAddress => true
  | .frameReceived _ c => c.wellFormed
  | .frameSent _ c => c.wellFormed
  | .sendError _ c _ => c.wellFormed
  | .wdFireTc _ _ => true
  | .wdFireTm _ _ => true
  | .wdFireSb _ => true
  | .wdFireGb _ => true
  | .rdFireSb _ => true

end Sys2Proof
end

