-- ==== Sys2Proof/Decode.lean ====
section
/-! DEFINITION. The frame codec (spec/40_codec.md R160 to R166), the command-field formats and codes (spec/30_encoding.md
R111 to R133, spec/41_command_fields.md R190 to R193), the decoder from a link-interface record to a frame kind, the
encoder back, and the host's table words. Everything here is total and holds no state (R166). -/

namespace Sys2Proof

/-! ### Identifier: R111, R160, R161 -/

/-- `encode_id` (R160). -/
def encodeId (toAddr : Byte) (type : BitVec 3) (fromAddr : Byte) (cmd : Command) : Word32 :=
  (toAddr.setWidth 32 <<< 21) ||| (type.setWidth 32 <<< 18) ||| (fromAddr.setWidth 32 <<< 10) ||| cmd.setWidth 32

/-- Bits 28:21 (R119). -/
def idToAddress (id : Word32) : Byte := id.extractLsb' 21 8

/-- Bits 20:18 (R119). -/
def idTransferType (id : Word32) : BitVec 3 := id.extractLsb' 18 3

/-- Bits 17:10 (R119). -/
def idFromAddress (id : Word32) : Byte := id.extractLsb' 10 8

/-- Bits 9:0 (R119). -/
def idCommand (id : Word32) : Command := id.extractLsb' 0 10

/-- `decode_id` (R161). Bits 31:29 are ignored (R137). -/
def decodeId (id : Word32) : Byte × BitVec 3 × Byte × Command :=
  (idToAddress id, idTransferType id, idFromAddress id, idCommand id)

/-- `encode_frame` (R162). -/
def encodeFrame (f : LogicalFrame) : CanFrame :=
  { id := encodeId f.toAddress f.transferType f.fromAddress f.command, extid := true, rtr := false, data := f.data }

/-- The logical frame of a CAN frame's identifier and data, with no test of `extid` and `rtr` (R161, R298). -/
def frameFields (c : CanFrame) : LogicalFrame :=
  { toAddress := idToAddress c.id, transferType := idTransferType c.id, fromAddress := idFromAddress c.id,
    command := idCommand c.id, data := c.data }

/-- `decode_frame` (R163): `none` is `Drop`. -/
def decodeFrame (c : CanFrame) : Option LogicalFrame :=
  if !c.extid || c.rtr then none else some (frameFields c)

/-! ### Command field: R112, R190 to R193 -/

def ttCmd (ft : BitVec 2) (ch : Byte) : Command := (ft.setWidth 10 <<< 8) ||| ch.setWidth 10
def ttFt (cmd : Command) : BitVec 2 := cmd.extractLsb' 8 2
def ttChannel (cmd : Command) : Byte := cmd.extractLsb' 0 8

def blkCmd (ft : BitVec 3) (done : Bool) (sn : Seq) : Command :=
  (ft.setWidth 10 <<< 7) ||| ((BitVec.ofBool done).setWidth 10 <<< 6) ||| sn.setWidth 10
def blkFt (cmd : Command) : BitVec 3 := cmd.extractLsb' 7 3
def blkDone (cmd : Command) : Bool := cmd.getLsbD 6

/-- Bits 5:0, the source's "cmd-bits" (R193). -/
def blkSn (cmd : Command) : Seq := cmd.extractLsb' 0 6

/-- CMD-UNS: the channel in the low byte, the other bits zero (R112, R210). -/
def unsCmd (ch : Byte) : Command := ch.setWidth 10

/-! ### Codes: R60, R113 to R115 -/

def TransferType.bits : TransferType → BitVec 3
  | .timeSync => 0 | .unsolicited => 1 | .telecommand => 2 | .telemetry => 3
  | .setBlock => 4 | .getBlock => 5 | .reserved6 => 6 | .reserved7 => 7

def TransferType.ofBits (v : BitVec 3) : TransferType :=
  match v.toNat with
  | 0 => .timeSync | 1 => .unsolicited | 2 => .telecommand | 3 => .telemetry
  | 4 => .setBlock | 5 => .getBlock | 6 => .reserved6 | _ => .reserved7

def TtFrameType.bits : TtFrameType → BitVec 2
  | .request => 0 | .ack => 1 | .nack => 2 | .reserved3 => 3

def TtFrameType.ofBits (v : BitVec 2) : TtFrameType :=
  match v.toNat with
  | 0 => .request | 1 => .ack | 2 => .nack | _ => .reserved3

def SbFrameType.bits : SbFrameType → BitVec 3
  | .request => 0 | .transfer => 1 | .ack => 2 | .abort => 3
  | .nack => 4 | .reserved5 => 5 | .status => 6 | .report => 7

def SbFrameType.ofBits (v : BitVec 3) : SbFrameType :=
  match v.toNat with
  | 0 => .request | 1 => .transfer | 2 => .ack | 3 => .abort
  | 4 => .nack | 5 => .reserved5 | 6 => .status | _ => .report

def GbFrameType.bits : GbFrameType → BitVec 3
  | .request => 0 | .reserved1 => 1 | .ack => 2 | .abort => 3
  | .nack => 4 | .reserved5 => 5 | .start => 6 | .transfer => 7

def GbFrameType.ofBits (v : BitVec 3) : GbFrameType :=
  match v.toNat with
  | 0 => .request | 1 => .reserved1 | 2 => .ack | 3 => .abort
  | 4 => .nack | 5 => .reserved5 | 6 => .start | _ => .transfer

/-! ### Logical frames by family -/

/-- A TC frame. -/
def tcFrame (ft : TtFrameType) (toAddr fromAddr ch : Byte) (data : List Byte) : LogicalFrame :=
  { toAddress := toAddr, transferType := TransferType.telecommand.bits, fromAddress := fromAddr,
    command := ttCmd ft.bits ch, data := data }

/-- A TM frame. -/
def tmFrame (ft : TtFrameType) (toAddr fromAddr ch : Byte) (data : List Byte) : LogicalFrame :=
  { toAddress := toAddr, transferType := TransferType.telemetry.bits, fromAddress := fromAddr,
    command := ttCmd ft.bits ch, data := data }

/-- An SB frame. -/
def sbFrame (ft : SbFrameType) (toAddr fromAddr : Byte) (done : Bool) (sn : Seq) (data : List Byte) : LogicalFrame :=
  { toAddress := toAddr, transferType := TransferType.setBlock.bits, fromAddress := fromAddr,
    command := blkCmd ft.bits done sn, data := data }

/-- A GB frame; its `done` bit is built as 0 (R116). -/
def gbFrame (ft : GbFrameType) (toAddr fromAddr : Byte) (sn : Seq) (data : List Byte) : LogicalFrame :=
  { toAddress := toAddr, transferType := TransferType.getBlock.bits, fromAddress := fromAddr,
    command := blkCmd ft.bits false sn, data := data }

/-- `UNSOL(to, ch, data)` (R210). -/
def unsolFrame (toAddr fromAddr ch : Byte) (data : List Byte) : LogicalFrame :=
  { toAddress := toAddr, transferType := TransferType.unsolicited.bits, fromAddress := fromAddr,
    command := unsCmd ch, data := data }

/-- A TIMESYNC frame: to 0x00, command 0 (R212). -/
def timesyncFrame (fromAddr : Byte) (data : List Byte) : LogicalFrame :=
  { toAddress := 0x00, transferType := TransferType.timeSync.bits, fromAddress := fromAddr, command := 0, data := data }

/-- A frame of a reserved type with its unused bits 0 (R130, R190). -/
def reservedFrame (t : TransferType) (toAddr fromAddr : Byte) (data : List Byte) : LogicalFrame :=
  { toAddress := toAddr, transferType := t.bits, fromAddress := fromAddr, command := 0, data := data }

/-! ### Decoder: R120, R121 -/

def decodeTc (p : Port) (f : LogicalFrame) : Instr :=
  match TtFrameType.ofBits (ttFt f.command) with
  | .request => .tcRequest p f.toAddress f.fromAddress (ttChannel f.command) f.data
  | .ack => .tcAck p f.toAddress f.fromAddress (ttChannel f.command) f.data
  | .nack => .tcNack p f.toAddress f.fromAddress (ttChannel f.command) f.data
  | .reserved3 => .tcReservedFt3 p f.toAddress f.fromAddress (ttChannel f.command) f.data

def decodeTm (p : Port) (f : LogicalFrame) : Instr :=
  match TtFrameType.ofBits (ttFt f.command) with
  | .request => .tmRequest p f.toAddress f.fromAddress (ttChannel f.command) f.data
  | .ack => .tmAck p f.toAddress f.fromAddress (ttChannel f.command) f.data
  | .nack => .tmNack p f.toAddress f.fromAddress (ttChannel f.command) f.data
  | .reserved3 => .tmReservedFt3 p f.toAddress f.fromAddress (ttChannel f.command) f.data

def decodeSb (p : Port) (f : LogicalFrame) : Instr :=
  match SbFrameType.ofBits (blkFt f.command) with
  | .request => .sbRequest p f.toAddress f.fromAddress (blkSn f.command) f.data
  | .transfer => .sbTransfer p f.toAddress f.fromAddress (blkSn f.command) f.data
  | .ack => .sbAck p f.toAddress f.fromAddress (blkSn f.command) f.data
  | .abort => .sbAbort p f.toAddress f.fromAddress (blkSn f.command) f.data
  | .nack => .sbNack p f.toAddress f.fromAddress (blkSn f.command) f.data
  | .reserved5 => .sbReservedFt5 p f.toAddress f.fromAddress (blkSn f.command) f.data
  | .status => .sbStatus p f.toAddress f.fromAddress (blkSn f.command) f.data
  | .report => .sbReport p f.toAddress f.fromAddress (blkDone f.command) (blkSn f.command) f.data

def decodeGb (p : Port) (f : LogicalFrame) : Instr :=
  match GbFrameType.ofBits (blkFt f.command) with
  | .request => .gbRequest p f.toAddress f.fromAddress (blkSn f.command) f.data
  | .reserved1 => .gbReservedFt1 p f.toAddress f.fromAddress (blkSn f.command) f.data
  | .ack => .gbAck p f.toAddress f.fromAddress (blkSn f.command) f.data
  | .abort => .gbAbort p f.toAddress f.fromAddress (blkSn f.command) f.data
  | .nack => .gbNack p f.toAddress f.fromAddress (blkSn f.command) f.data
  | .reserved5 => .gbReservedFt5 p f.toAddress f.fromAddress (blkSn f.command) f.data
  | .start => .gbStart p f.toAddress f.fromAddress (blkSn f.command) f.data
  | .transfer => .gbTransfer p f.toAddress f.fromAddress (blkSn f.command) f.data

/-- The frame kind of a logical frame (R120 (3) to (5), R121). -/
def decodeKind (p : Port) (f : LogicalFrame) : Except DecodeError Instr :=
  match TransferType.ofBits f.transferType with
  | .timeSync => if f.toAddress = 0x00 then .ok (.timesync p f.fromAddress f.data) else .error .noFrameKind
  | .unsolicited =>
    if f.toAddress = 0x01 then .ok (.keepalive p f.fromAddress (ttChannel f.command) f.data)
    else .ok (.unsol p f.toAddress f.fromAddress (ttChannel f.command) f.data)
  | .telecommand => .ok (decodeTc p f)
  | .telemetry => .ok (decodeTm p f)
  | .setBlock => .ok (decodeSb p f)
  | .getBlock => .ok (decodeGb p f)
  | .reserved6 => .ok (.type6Reserved p f.toAddress f.fromAddress f.data)
  | .reserved7 => .ok (.type7Reserved p f.toAddress f.fromAddress f.data)

/-- The decoder: the frame kind of a CAN frame met at port `p`, or the name of what is wrong with it (R120). -/
def decode (p : Port) (c : CanFrame) : Except DecodeError Instr :=
  if c.extid = false then .error .standardIdentifier
  else if c.rtr = true then .error .remoteFrame
  else decodeKind p (frameFields c)

/-! ### Encoder -/

/-- The logical frame of a frame kind, with every unused bit 0 (R133, R190); `none` for a host command or an input event,
which have no bit encoding (R143). -/
def kindFrame : Instr → Option LogicalFrame
  | .tcRequest _ t f ch d => some (tcFrame .request t f ch d)
  | .tcAck _ t f ch d => some (tcFrame .ack t f ch d)
  | .tcNack _ t f ch d => some (tcFrame .nack t f ch d)
  | .tcReservedFt3 _ t f ch d => some (tcFrame .reserved3 t f ch d)
  | .tmRequest _ t f ch d => some (tmFrame .request t f ch d)
  | .tmAck _ t f ch d => some (tmFrame .ack t f ch d)
  | .tmNack _ t f ch d => some (tmFrame .nack t f ch d)
  | .tmReservedFt3 _ t f ch d => some (tmFrame .reserved3 t f ch d)
  | .sbRequest _ t f n d => some (sbFrame .request t f false n d)
  | .sbTransfer _ t f n d => some (sbFrame .transfer t f false n d)
  | .sbAck _ t f n d => some (sbFrame .ack t f false n d)
  | .sbAbort _ t f n d => some (sbFrame .abort t f false n d)
  | .sbNack _ t f n d => some (sbFrame .nack t f false n d)
  | .sbReservedFt5 _ t f n d => some (sbFrame .reserved5 t f false n d)
  | .sbStatus _ t f n d => some (sbFrame .status t f false n d)
  | .sbReport _ t f done n d => some (sbFrame .report t f done n d)
  | .gbRequest _ t f n d => some (gbFrame .request t f n d)
  | .gbReservedFt1 _ t f n d => some (gbFrame .reserved1 t f n d)
  | .gbAck _ t f n d => some (gbFrame .ack t f n d)
  | .gbAbort _ t f n d => some (gbFrame .abort t f n d)
  | .gbNack _ t f n d => some (gbFrame .nack t f n d)
  | .gbReservedFt5 _ t f n d => some (gbFrame .reserved5 t f n d)
  | .gbStart _ t f n d => some (gbFrame .start t f n d)
  | .gbTransfer _ t f n d => some (gbFrame .transfer t f n d)
  | .unsol _ t f ch d => some (unsolFrame t f ch d)
  | .keepalive _ f ch d => some (unsolFrame 0x01 f ch d)
  | .timesync _ f d => some (timesyncFrame f d)
  | .type6Reserved _ t f d => some (reservedFrame .reserved6 t f d)
  | .type7Reserved _ t f d => some (reservedFrame .reserved7 t f d)
  | .start _ _ _ => none
  | .stop => none
  | .sendTc _ _ _ _ => none
  | .receiveTm _ _ _ => none
  | .sendBlock _ _ _ _ _ _ => none
  | .receiveBlock _ _ _ _ _ => none
  | .sendTimeSync _ => none
  | .sendUnsolicited _ _ _ => none
  | .canBusSwitch => none
  | .getActiveBus => none
  | .getAddress => none
  | .frameReceived _ _ => none
  | .frameSent _ _ => none
  | .sendError _ _ _ => none
  | .wdFireTc _ _ => none
  | .wdFireTm _ _ => none
  | .wdFireSb _ => none
  | .wdFireGb _ => none
  | .rdFireSb _ => none

/-- The encoder: the CAN frame of a frame kind. -/
def encode (i : Instr) : Option CanFrame := (kindFrame i).map encodeFrame

/-- The port of a frame kind; the port of a notification's own bus; host commands and timer fires have none. -/
def Instr.port? : Instr → Option Port
  | .tcRequest p _ _ _ _ | .tcAck p _ _ _ _ | .tcNack p _ _ _ _ | .tcReservedFt3 p _ _ _ _
  | .tmRequest p _ _ _ _ | .tmAck p _ _ _ _ | .tmNack p _ _ _ _ | .tmReservedFt3 p _ _ _ _
  | .sbRequest p _ _ _ _ | .sbTransfer p _ _ _ _ | .sbAck p _ _ _ _ | .sbAbort p _ _ _ _
  | .sbNack p _ _ _ _ | .sbReservedFt5 p _ _ _ _ | .sbStatus p _ _ _ _ | .sbReport p _ _ _ _ _
  | .gbRequest p _ _ _ _ | .gbReservedFt1 p _ _ _ _ | .gbAck p _ _ _ _ | .gbAbort p _ _ _ _
  | .gbNack p _ _ _ _ | .gbReservedFt5 p _ _ _ _ | .gbStart p _ _ _ _ | .gbTransfer p _ _ _ _
  | .unsol p _ _ _ _ | .keepalive p _ _ _ | .timesync p _ _
  | .type6Reserved p _ _ _ | .type7Reserved p _ _ _ => some p
  | .frameReceived b _ => some ⟨b, .received⟩
  | .frameSent b _ => some ⟨b, .sent⟩
  | .sendError b _ r => some ⟨b, .sendError r⟩
  | .start _ _ _ | .stop | .sendTc _ _ _ _ | .receiveTm _ _ _ | .sendBlock _ _ _ _ _ _ | .receiveBlock _ _ _ _ _
  | .sendTimeSync _ | .sendUnsolicited _ _ _ | .canBusSwitch | .getActiveBus | .getAddress
  | .wdFireTc _ _ | .wdFireTm _ _ | .wdFireSb _ | .wdFireGb _ | .rdFireSb _ => none

/-! ### The host's table words -/

/-- The CAN frame whose identifier is the low 32 bits of `w` and whose data bytes are the whole bytes above them, first
byte lowest; a bit at or above `nbits` is 0. -/
def tableFrame (nbits w : Nat) : CanFrame :=
  { id := BitVec.ofNat 32 (w % 2 ^ nbits), extid := true, rtr := false,
    data := (List.range (min 8 ((nbits - 32) / 8))).map fun k => BitVec.ofNat 8 ((w % 2 ^ nbits) >>> (32 + 8 * k)) }

/-- The port at which a table word is met: received on the Nominal bus. -/
def tablePort : Port := ⟨.nominal, .received⟩

/-- What the decoder reads from a table row's word. An identifier takes 29 bits, so fewer than 29 are no instruction. -/
def decodeTableWord (nbits w : Nat) : Option Instr :=
  if nbits < 29 then none else (decode tablePort (tableFrame nbits w)).toOption

end Sys2Proof
end

