-- ==== Sys2Proof/Config.lean ====
section
/-! DEFINITION. What the spec fixes once for the whole machine (R15, R89), the parameters it leaves to the model, and the
one free value of the model. -/

namespace Sys2Proof

/-- `WATCHDOG_DISPATCH`: what an SB or GB watchdog fire retries (R15, R420, R421, R471). -/
inductive WatchdogDispatch where
  | perState
  | literal
  deriving DecidableEq, Repr

/-- `GB_DATA_WATCHDOG`: what a valid GB TRANSFER does to the watchdog while frames are outstanding (R15, R465). -/
inductive GbDataWatchdog where
  | restart
  | stop
  deriving DecidableEq, Repr

/-- The named parameters of R15 that select a behaviour. They stand in the state so that both values of each are
modelled; no instruction writes them. -/
structure Params where
  watchdogDispatch : WatchdogDispatch
  gbDataWatchdog : GbDataWatchdog
  deriving DecidableEq, Repr

/-- The defaults of R15. -/
def Config.defaultParams : Params := { watchdogDispatch := .perState, gbDataWatchdog := .restart }

/-- The time-sync broadcast address (R60, R89). -/
def Config.timeSyncAddress : Byte := 0x00

/-- The keep-alive broadcast address (R60, R89). -/
def Config.keepAliveAddress : Byte := 0x01

/-- DESIGN CHOICE, unsafe (log entry 1): the value `State.reset` gives `E.address`, which the spec leaves unspecified
(`INITIAL_ADDRESS`, R31). `State.resetWith` takes any other. -/
def Config.initialAddress : Byte := 0

/-- DESIGN CHOICE, unsafe (log entry 1): the value `State.reset` gives `E.timeout_ms` (`INITIAL_TIMEOUT`, R32). -/
def Config.initialTimeout : Word32 := 0

/-- FREE VALUE (log entry 2): the `k`-th answer of the driver of a bus to `open` or `send` when no answer has been
supplied. "`open` and `send` return any boolean" (R310 (a)): nothing constrains it. -/
opaque Config.driverAnswer : Bus → Nat → Bool

end Sys2Proof
end

