-- ==== Sys2Proof/Machine/State.lean ====
section
/-! DEFINITION. The engine's state as plain data (spec/10_state.md), its events, its faults and refusals, and the state
after power-on reset (R65, R610). -/

namespace Sys2Proof.Machine

/-! ### Enumerations, with the spec's numbers (R33, R40, R43, R47) -/

/-- TC and TM `tx_state` (R40). -/
inductive TtTx where
  | idle | sendingRequest
  deriving DecidableEq, Repr

/-- TC and TM `rx_state` (R40). -/
inductive TtRx where
  | idle | waitingForRequestAck
  deriving DecidableEq, Repr

/-- SB `tx_state` (R43). `sendingStart` is listed by the source and never entered (C8). -/
inductive SbTx where
  | idle | sendingRequest | sendingStart | sendingData | waitingForSendStatusRequest | sendingStatusRequest | sendingAbort
  deriving DecidableEq, Repr

/-- GB `tx_state` (R47). -/
inductive GbTx where
  | idle | sendingRequest | sendingStart | sendingAbort
  deriving DecidableEq, Repr

/-- SB and GB `rx_state` (R43, R47). -/
inductive BlkRx where
  | idle | waitingForRequestAck | waitingForData | waitingForAbortAck
  deriving DecidableEq, Repr

/-- TC error kinds (R560). -/
inductive TcKind where
  | sendRequestFailed | maxRetriesReached
  deriving DecidableEq, Repr

/-- TM error kinds (R560). -/
inductive TmKind where
  | sendRequestFailed | maxRetriesReached
  deriving DecidableEq, Repr

/-- SB error kinds, in the order of R561's codes. -/
inductive SbKind where
  | sendRequestFailed | maxSendRequestRetriesReached | sendDataFailed | sendStatusRequestFailed
  | maxSendStatusRetriesReached | maxReportRetriesReached | sendAbortFailed | maxSendAbortRetriesReached
  | abortNackReceived
  deriving DecidableEq, Repr

/-- GB error kinds, in the order of R561's codes. -/
inductive GbKind where
  | sendRequestFailed | maxSendRequestRetriesReached | sendStartFailed | maxSendStartRetriesReached
  | sendAbortFailed | maxSendAbortRetriesReached | abortNackReceived
  deriving DecidableEq, Repr

/-! ### Timers and records -/

/-- A timer is idle or armed; the period is kept with the arming and nothing reads it (R50, R640). -/
inductive Timer where
  | idle
  | armed (periodMs : Word32)
  deriving DecidableEq, Repr

/-- A TC record (R40). -/
structure TcRec where
  address : Byte
  channel : Byte
  data : List Byte
  retryCount : Byte
  maxRetries : Byte
  tx : TtTx
  rx : TtRx
  wd : Timer
  deriving DecidableEq, Repr

/-- A TM record (R41). -/
structure TmRec where
  address : Byte
  channel : Byte
  retryCount : Byte
  maxRetries : Byte
  tx : TtTx
  rx : TtRx
  wd : Timer
  deriving DecidableEq, Repr

/-- An SB record (R43). -/
structure SbRec where
  address : Byte
  start : List Byte
  data : List Byte
  blocks : Byte
  bitmap : List Byte
  done : Bool
  retryCount : Byte
  maxRetries : Byte
  reportRetryCount : Byte
  maxReportRetries : Byte
  reportDelayMs : Word32
  tx : SbTx
  rx : BlkRx
  wd : Timer
  rd : Timer
  deriving DecidableEq, Repr

/-- A GB record (R47). -/
structure GbRec where
  address : Byte
  start : List Byte
  blocks : Byte
  bitmap : List Byte
  data : List Byte
  retryCount : Byte
  maxRetries : Byte
  startRetryCount : Byte
  maxStartRetries : Byte
  tx : GbTx
  rx : BlkRx
  wd : Timer
  deriving DecidableEq, Repr

/-- The key of a transfer in its registry (R37). -/
inductive Key where
  | tc (address channel : Byte)
  | tm (address channel : Byte)
  | sb (address : Byte)
  | gb (address : Byte)
  deriving DecidableEq, Repr

/-! ### Link drivers -/

/-- A link driver is closed, or open with the port name and baud rate Start passed to it (R36, R520). -/
inductive LinkState where
  | closed
  | opened (settings : PortSettings)
  deriving DecidableEq, Repr

/-- A link driver: its state (R36), the frames it has accepted and not yet confirmed, oldest first (R53), the answers the
environment has it give to the next `open` and `send` calls, and how many it has given (R310 (a); log entry 2). -/
structure Link where
  state : LinkState
  inFlight : List CanFrame
  answers : List Bool
  asked : Nat
  deriving DecidableEq, Repr

/-! ### Host port -/

/-- The output events (R570, R571). -/
inductive OutEvent where
  | sendTcCompleted (address channel : Byte)
  | sendTcFailed (address channel : Byte) (kind : TcKind)
  | receiveTmCompleted (address channel : Byte) (data : List Byte)
  | receiveTmFailed (address channel : Byte) (kind : TmKind)
  | sendBlockCompleted (address : Byte)
  | sendBlockFailed (address : Byte) (kind : SbKind)
  | receiveBlockCompleted (address : Byte) (data : List Byte)
  | receiveBlockFailed (address : Byte) (kind : GbKind)
  | sendTimeSyncCompleted (time : Word64)
  | sendTimeSyncFailed (time : Word64)
  | sendUnsolicitedCompleted (address channel : Byte)
  | sendUnsolicitedFailed (address channel : Byte)
  | unsolicitedReceived (fromAddress channel : Byte) (data : List Byte)
  | timeSyncReceived (fromAddress : Byte) (data : List Byte)
  | keepAliveReceivedNominal (fromAddress channel : Byte) (data : List Byte)
  | keepAliveReceivedRedundant (fromAddress channel : Byte) (data : List Byte)
  deriving DecidableEq, Repr

/-- A host command's return value (R526 to R528). Stop and CanBusSwitch have none (R300, R524). -/
inductive HostResult where
  | bool (value : Bool)
  | bus (value : Bus)
  | address (value : Byte)
  deriving DecidableEq, Repr

/-- What the host port carries out of the engine, in order: output events and return values (R56, R94, R528). -/
inductive HostOut where
  | event (e : OutEvent)
  | result (r : HostResult)
  deriving DecidableEq, Repr

/-! ### The state -/

/-- The engine's state `E` (R30 to R56) with the environment's side of its two links, and the parameters of R15. The
registries list their records with strictly rising keys (log entry 6). -/
structure State where
  /-- `E.running` (R34). -/
  running : Bool
  /-- `E.address` (R31). -/
  address : Byte
  /-- `E.timeout_ms` (R32). -/
  timeoutMs : Word32
  /-- `E.active_bus` (R33). -/
  activeBus : Bus
  /-- `E.link[Nominal]` (R36, R53). -/
  nominal : Link
  /-- `E.link[Redundant]` (R36, R53). -/
  redundant : Link
  /-- `E.TC` (R37, R40). -/
  tc : List TcRec
  /-- `E.TM` (R37, R41). -/
  tm : List TmRec
  /-- `E.SB` (R37, R43). -/
  sb : List SbRec
  /-- `E.GB` (R37, R47). -/
  gb : List GbRec
  /-- The posted and undelivered input events, in the order the environment delivers them (R55, R92). -/
  pending : List Instr
  /-- The output stream of the host port (R56). -/
  out : List HostOut
  /-- The model's own field: `WATCHDOG_DISPATCH` and `GB_DATA_WATCHDOG` (R15). No step writes it. -/
  params : Params
  deriving DecidableEq, Repr

/-! ### Stops -/

/-- The model faults of the spec. Each is raised only when the precondition of a buffer or bitmap primitive is violated,
which no rule of the engine does (R95, R261): from a state that meets `State.Inv` no step raises one. -/
inductive Fault where
  /-- `BitmapIndex(k, len(b))` (R261), raised by the bitmap primitives. Safe: it stops where the spec says a model
  raises a fault. -/
  | bitmapIndex (k len : Nat)
  /-- `BufferRange(off, n)` (R95), raised by `memRead` and `memWrite`. Safe: as above. -/
  | bufferRange (off n : Nat)
  deriving DecidableEq, Repr

/-- Why the model gives no next state. -/
inductive Refusal where
  /-- An instruction of the opcode table without a meaning, raised by an arm of `exec`. Safe. No arm raises it. -/
  | notModelled (mnemonic : String)
  /-- A posted frame the link interface cannot carry (a data field over 8 bytes: "A model does not represent a longer data
  field", R164) or an UNSOL to 0x01, which is a KEEPALIVE (R121 (a)). Raised by `step`. Safe. -/
  | illFormed
  deriving DecidableEq, Repr

/-! ### Reset -/

/-- A link driver at power-on: closed, nothing in flight (R36, R65). -/
def Link.reset : Link := { state := .closed, inFlight := [], answers := [], asked := 0 }

/-- Power-on reset (R65, R610) for one draw of `INITIAL_ADDRESS` and `INITIAL_TIMEOUT` and one choice of the
parameters (R15). -/
def State.resetWith (address : Byte) (timeoutMs : Word32) (params : Params) : State :=
  { running := false, address := address, timeoutMs := timeoutMs, activeBus := .nominal,
    nominal := Link.reset, redundant := Link.reset, tc := [], tm := [], sb := [], gb := [],
    pending := [], out := [], params := params }

/-- Power-on reset with the draws of log entry 1 and the default parameters. -/
def State.reset : State := State.resetWith Config.initialAddress Config.initialTimeout Config.defaultParams

end Sys2Proof.Machine
end

