-- ==== Sys2Proof/Machine/Bitmap.lean ====
section
/-! DEFINITION. The bitmap utilities (spec/42_bitmap.md R260 to R273) and the buffer primitives (spec/20_memory.md R95). A
call outside its precondition raises the fault the spec names for it. -/

namespace Sys2Proof.Machine

/-! ### Reading and writing one bit, total -/

/-- Index `k` is bit `k mod 8` of byte `k div 8` (R81, R260). An index past the end reads as clear. -/
def bitAt (b : List Byte) (k : Nat) : Bool := (b.getD (k / 8) 0).getLsbD (k % 8)

/-- `b` with bit `k` set; an index past the end changes nothing (R262). -/
def withBitSet (b : List Byte) (k : Nat) : List Byte := b.modify (k / 8) fun x => x ||| (1#8 <<< (k % 8))

/-- `b` with bit `k` cleared; an index past the end changes nothing (R263). -/
def withBitClear (b : List Byte) (k : Nat) : List Byte := b.modify (k / 8) fun x => x &&& ~~~(1#8 <<< (k % 8))

/-! ### The utilities -/

/-- `bm_size` (R260). -/
def bmSize (n : Nat) : Nat := ceilDiv8 n

/-- `bm_zero` (R260). -/
def bmZero (n : Nat) : List Byte := List.replicate (bmSize n) 0

/-- `set_bit` (R261, R262). -/
def setBit (b : List Byte) (k : Nat) : Except Fault (List Byte) :=
  if k < 8 * b.length then .ok (withBitSet b k) else .error (.bitmapIndex k b.length)

/-- `clear_bit` (R261, R263). -/
def clearBit (b : List Byte) (k : Nat) : Except Fault (List Byte) :=
  if k < 8 * b.length then .ok (withBitClear b k) else .error (.bitmapIndex k b.length)

/-- `is_bit_set` (R261, R264). -/
def isBitSet (b : List Byte) (k : Nat) : Except Fault Bool :=
  if k < 8 * b.length then .ok (bitAt b k) else .error (.bitmapIndex k b.length)

/-- The precondition `n ≤ 8 * len(b)` of the folds over `0 .. n-1`; its violation names the first index outside. -/
def inRange {α : Type} (b : List Byte) (n : Nat) (v : α) : Except Fault α :=
  if n ≤ 8 * b.length then .ok v else .error (.bitmapIndex (8 * b.length) b.length)

/-- `all_set` (R265). -/
def allSet (b : List Byte) (n : Nat) : Except Fault Bool :=
  inRange b n ((List.range n).all fun k => bitAt b k)

/-- `all_cleared` (R266). -/
def allCleared (b : List Byte) (n : Nat) : Except Fault Bool :=
  inRange b n ((List.range n).all fun k => !bitAt b k)

/-- `set_first_n` (R267). -/
def setFirstN (b : List Byte) (n : Nat) : Except Fault (List Byte) :=
  inRange b n ((List.range n).foldl withBitSet b)

/-- `is_valid` (R268): the length matches and no padding bit is set. -/
def isValid (b : List Byte) (n : Nat) : Bool :=
  b.length == bmSize n && (List.range (8 * b.length)).all fun k => decide (k < n) || !bitAt b k

/-- `first_clear` (R269): the least clear index below `n`. -/
def firstClear (b : List Byte) (n : Nat) : Except Fault (Option Nat) :=
  inRange b n ((List.range n).find? fun k => !bitAt b k)

/-! ### Buffers -/

/-- `MemRead(buf, off, n)` (R95). -/
def memRead (buf : List Byte) (off n : Nat) : Except Fault (List Byte) :=
  if off + n ≤ buf.length then .ok ((buf.drop off).take n) else .error (.bufferRange off n)

/-- `MemWrite(buf, off, len(v), v)` (R95). -/
def memWrite (buf : List Byte) (off : Nat) (v : List Byte) : Except Fault (List Byte) :=
  if off + v.length ≤ buf.length then .ok (buf.take off ++ v ++ buf.drop (off + v.length))
  else .error (.bufferRange off v.length)

end Sys2Proof.Machine
end

