-- ==== Sys2Proof/Machine/Flags.lean ====
section
/-! DEFINITION. The engine's flags and tests (R62): the derived `success_path` (R45), the validity tests of received
frames (R221, R224, R231), the address tests of the host commands (R89), whether a timer is armed (R50), and the numbers
of the enumerations (R33, R40, R43, R47, R561), which no interface shows (D7, D47). -/

namespace Sys2Proof.Machine

/-- A timer is armed (R50). -/
def Timer.isArmed : Timer → Bool
  | .idle => false
  | .armed _ => true

/-- A driver is open (R36). -/
def Link.isOpen (l : Link) : Bool :=
  match l.state with
  | .closed => false
  | .opened _ => true

/-- The broadcast addresses (R60, R89). -/
def isBroadcast (a : Byte) : Bool := a == Config.timeSyncAddress || a == Config.keepAliveAddress

/-- `other(b)`: the other bus. -/
def otherBus : Bus → Bus
  | .nominal => .redundant
  | .redundant => .nominal

/-- `sb_request_ack_valid` and `gb_request_ack_valid` (R221, R231): a comparison of bytes. -/
def requestAckValid (blocks : Byte) (start : List Byte) (sn : Seq) (data : List Byte) : Bool :=
  sn.toNat + 1 == blocks.toNat && data == start

/-- `sb_abort_ack_valid` and `gb_abort_ack_valid` (R221, R231), also the test of an abort NACK (R226, R235). -/
def abortAckValid (sn : Seq) (data : List Byte) : Bool := sn == 0 && data == []

/-- `sb_report_valid` (R224). -/
def reportValid (blocks : Byte) (done : Bool) (data : List Byte) : Except Fault Bool :=
  if isValid data blocks.toNat then (if done then allSet data blocks.toNat else .ok true) else .ok false

/-- `success_path(T) = T.done ∧ all_set(T.bitmap, T.blocks)` (R45). -/
def successPath (r : SbRec) : Except Fault Bool :=
  if r.done then allSet r.bitmap r.blocks.toNat else .ok false

/-! ### Numbers of the enumerations -/

/-- The code of the active bus (R33). -/
def busCode : Bus → Nat
  | .nominal => 0 | .redundant => 1

/-- The codes of TC and TM `tx_state` (R40). -/
def TtTx.code : TtTx → Nat
  | .idle => 0 | .sendingRequest => 1

/-- The codes of TC and TM `rx_state` (R40). -/
def TtRx.code : TtRx → Nat
  | .idle => 0 | .waitingForRequestAck => 1

/-- The codes of SB `tx_state` (R43). -/
def SbTx.code : SbTx → Nat
  | .idle => 0 | .sendingRequest => 1 | .sendingStart => 2 | .sendingData => 3
  | .waitingForSendStatusRequest => 4 | .sendingStatusRequest => 5 | .sendingAbort => 6

/-- The codes of GB `tx_state`, SB's numbers (R47). -/
def GbTx.code : GbTx → Nat
  | .idle => 0 | .sendingRequest => 1 | .sendingStart => 2 | .sendingAbort => 6

/-- The codes of SB and GB `rx_state` (R43, R47). -/
def BlkRx.code : BlkRx → Nat
  | .idle => 0 | .waitingForRequestAck => 1 | .waitingForData => 2 | .waitingForAbortAck => 3

/-- The codes of the TC error kinds (R561). -/
def TcKind.code : TcKind → Nat
  | .sendRequestFailed => 0 | .maxRetriesReached => 1

/-- The codes of the TM error kinds (R561). -/
def TmKind.code : TmKind → Nat
  | .sendRequestFailed => 0 | .maxRetriesReached => 1

/-- The codes of the SB error kinds (R561). -/
def SbKind.code : SbKind → Nat
  | .sendRequestFailed => 0 | .maxSendRequestRetriesReached => 1 | .sendDataFailed => 2
  | .sendStatusRequestFailed => 3 | .maxSendStatusRetriesReached => 4 | .maxReportRetriesReached => 5
  | .sendAbortFailed => 6 | .maxSendAbortRetriesReached => 7 | .abortNackReceived => 8

/-- The codes of the GB error kinds (R561). -/
def GbKind.code : GbKind → Nat
  | .sendRequestFailed => 0 | .maxSendRequestRetriesReached => 1 | .sendStartFailed => 2
  | .maxSendStartRetriesReached => 3 | .sendAbortFailed => 4 | .maxSendAbortRetriesReached => 5
  | .abortNackReceived => 6

end Sys2Proof.Machine
end

