-- ==== Sys2Proof/Machine/Operands.lean ====
section
/-! DEFINITION. The operand forms: byte images of numbers (R18, R80), the start address (R240), the block count (R241), and
the constructors of every frame the engine builds (spec/41_command_fields.md R200 to R234). `L` is `E.address`. -/

namespace Sys2Proof.Machine

/-! ### Numbers as bytes -/

/-- `le_bytes_8` (R18, R80): byte 0 holds bits 7:0. -/
def leBytes8 (v : Word64) : List Byte := (List.range 8).map fun k => v.extractLsb' (8 * k) 8

/-- The little-endian value of a data field (R80, R491). -/
def leValue (bs : List Byte) : Word64 := bs.foldr (fun b acc => (acc <<< 8) ||| b.setWidth 64) 0

/-- `b` without its trailing zero bytes. -/
def trimZeros : List Byte → List Byte
  | [] => []
  | b :: bs =>
    match trimZeros bs with
    | [] => if b = 0 then [] else [b]
    | t => b :: t

/-- `encode_start` (R240): the little-endian image without trailing zero bytes, at least one byte. -/
def encodeStart (v : Word64) : List Byte :=
  match trimZeros (leBytes8 v) with
  | [] => [0x00]
  | bs => bs

/-- `sb_blocks` (R241). -/
def sbBlocks (n : Nat) : Nat := ceilDiv8 n

/-- The REQUEST's `seq_or_num`: the frame count minus one (R118, R220, R230). -/
def requestNum (blocks : Byte) : Seq := (blocks - 1).setWidth 6

/-! ### Frames the engine builds -/

/-- `TC_REQUEST(T)` (R200). -/
def tcRequestFrame (L : Byte) (r : TcRec) : LogicalFrame := tcFrame .request r.address L r.channel r.data

/-- `TM_REQUEST(T)` (R203). -/
def tmRequestFrame (L : Byte) (r : TmRec) : LogicalFrame := tmFrame .request r.address L r.channel []

/-- `SB_REQUEST(T)` (R220). -/
def sbRequestFrame (L : Byte) (r : SbRec) : LogicalFrame :=
  sbFrame .request r.address L false (requestNum r.blocks) r.start

/-- `SB_TRANSFER(T, seq)` (R222). -/
def sbTransferFrame (L : Byte) (r : SbRec) (seq : Nat) : Except Fault LogicalFrame :=
  match memRead r.data (8 * seq) (min 8 (r.data.length - 8 * seq)) with
  | .ok bytes => .ok (sbFrame .transfer r.address L false (BitVec.ofNat 6 seq) bytes)
  | .error e => .error e

/-- `SB_STATUS(T)` (R223). -/
def sbStatusFrame (L : Byte) (r : SbRec) : LogicalFrame := sbFrame .status r.address L false 0 []

/-- `SB_ABORT(T)` (R225). -/
def sbAbortFrame (L : Byte) (r : SbRec) : LogicalFrame := sbFrame .abort r.address L false 0 []

/-- `GB_REQUEST(T)` (R230). -/
def gbRequestFrame (L : Byte) (r : GbRec) : LogicalFrame := gbFrame .request r.address L (requestNum r.blocks) r.start

/-- `GB_START(T)` (R232): it carries the record's current bitmap. -/
def gbStartFrame (L : Byte) (r : GbRec) : LogicalFrame := gbFrame .start r.address L 0 r.bitmap

/-- `GB_ABORT(T)` (R234). -/
def gbAbortFrame (L : Byte) (r : GbRec) : LogicalFrame := gbFrame .abort r.address L 0 []

/-- `TIMESYNC(time)` (R212). -/
def timesyncOut (L : Byte) (time : Word64) : LogicalFrame := timesyncFrame L (leBytes8 time)

/-- `UNSOL(to, ch, data)` (R210). -/
def unsolOut (L toAddr ch : Byte) (data : List Byte) : LogicalFrame := unsolFrame toAddr L ch data

/-! ### Records at creation: R40, R41, R43, R47, R614 -/

/-- The record of SendTC (R341). -/
def newTcRec (addr ch : Byte) (data : List Byte) (retry : Byte) : TcRec :=
  { address := addr, channel := ch, data := data, retryCount := 0, maxRetries := retry,
    tx := .sendingRequest, rx := .idle, wd := .idle }

/-- The record of ReceiveTM (R351). -/
def newTmRec (addr ch retry : Byte) : TmRec :=
  { address := addr, channel := ch, retryCount := 0, maxRetries := retry,
    tx := .sendingRequest, rx := .idle, wd := .idle }

/-- The record of SendBlock (R381). -/
def newSbRec (addr : Byte) (startAddress : Word64) (data : List Byte) (retry : Byte) (reportDelayMs : Word32)
    (reportRetry : Byte) : SbRec :=
  { address := addr, start := encodeStart startAddress, data := data,
    blocks := BitVec.ofNat 8 (sbBlocks data.length), bitmap := bmZero (sbBlocks data.length), done := false,
    retryCount := 0, maxRetries := retry, reportRetryCount := 0, maxReportRetries := reportRetry,
    reportDelayMs := reportDelayMs, tx := .sendingRequest, rx := .idle, wd := .idle, rd := .idle }

/-- The record of ReceiveBlock with its initial bitmap (R441). -/
def newGbRec (addr : Byte) (startAddress : Word64) (length : Nat) (bitmap : List Byte) (retry startRetry : Byte) : GbRec :=
  { address := addr, start := encodeStart startAddress, blocks := BitVec.ofNat 8 length, bitmap := bitmap,
    data := List.replicate (8 * length) 0, retryCount := 0, maxRetries := retry, startRetryCount := 0,
    maxStartRetries := startRetry, tx := .sendingRequest, rx := .idle, wd := .idle }

end Sys2Proof.Machine
end

