-- ==== Sys2Proof/Machine/Ops.lean ====
section
/-! DEFINITION. The shared operations: registries (R305), the link drivers' interface (R290, R310), the host port (R20, R56),
the delivery conditions of link notifications and timers (R34, R36, R50), and the end of a transfer (R575, R576), which is
this engine's exception entry (R590). There is no return from it (R591). -/

namespace Sys2Proof.Machine

/-- What a step gives. -/
abbrev Result := Host.Outcome State Fault Refusal

/-- Go on with a checked value, or stop with its fault (R20, `raise`). -/
def checked {α : Type} (v : Except Fault α) (k : α → Result) : Result :=
  match v with
  | .ok a => k a
  | .error e => .fault e

/-! ### Registries: finite maps held as lists with strictly rising keys (R37, R305) -/

def regLookup {ρ : Type} (key : ρ → Nat) (k : Nat) (rs : List ρ) : Option ρ := rs.find? fun r => key r == k

/-- Insert a record, or write back the record of its key. -/
def regPut {ρ : Type} (key : ρ → Nat) (r : ρ) : List ρ → List ρ
  | [] => [r]
  | x :: xs =>
    if key r < key x then r :: x :: xs
    else if key r = key x then r :: xs
    else x :: regPut key r xs

def regRemove {ρ : Type} (key : ρ → Nat) (k : Nat) (rs : List ρ) : List ρ := rs.filter fun r => key r != k

/-- The key `(address, channel)` as one number. -/
def ttKey (a ch : Byte) : Nat := a.toNat * 256 + ch.toNat

/-- The key `address`. -/
def blkKey (a : Byte) : Nat := a.toNat

def TcRec.key (r : TcRec) : Nat := ttKey r.address r.channel
def TmRec.key (r : TmRec) : Nat := ttKey r.address r.channel
def SbRec.key (r : SbRec) : Nat := blkKey r.address
def GbRec.key (r : GbRec) : Nat := blkKey r.address

def State.lookupTc (s : State) (a ch : Byte) : Option TcRec := regLookup TcRec.key (ttKey a ch) s.tc
def State.lookupTm (s : State) (a ch : Byte) : Option TmRec := regLookup TmRec.key (ttKey a ch) s.tm
def State.lookupSb (s : State) (a : Byte) : Option SbRec := regLookup SbRec.key (blkKey a) s.sb
def State.lookupGb (s : State) (a : Byte) : Option GbRec := regLookup GbRec.key (blkKey a) s.gb

def State.putTc (s : State) (r : TcRec) : State := { s with tc := regPut TcRec.key r s.tc }
def State.putTm (s : State) (r : TmRec) : State := { s with tm := regPut TmRec.key r s.tm }
def State.putSb (s : State) (r : SbRec) : State := { s with sb := regPut SbRec.key r s.sb }
def State.putGb (s : State) (r : GbRec) : State := { s with gb := regPut GbRec.key r s.gb }

/-- `remove(key)`: the record's timers go with it (R39, R305). -/
def State.removeTransfer (s : State) : Key → State
  | .tc a ch => { s with tc := regRemove TcRec.key (ttKey a ch) s.tc }
  | .tm a ch => { s with tm := regRemove TmRec.key (ttKey a ch) s.tm }
  | .sb a => { s with sb := regRemove SbRec.key (blkKey a) s.sb }
  | .gb a => { s with gb := regRemove GbRec.key (blkKey a) s.gb }

/-- Clear the four registries with no event (R305, R307). -/
def State.clearRegistries (s : State) : State := { s with tc := [], tm := [], sb := [], gb := [] }

/-! ### Host port -/

/-- `emit` (R20). -/
def State.emit (s : State) (e : OutEvent) : State := { s with out := s.out ++ [.event e] }

/-- A command's return value reaches the host in the same step, after the events it emitted (R528). -/
def State.give (s : State) (r : HostResult) : State := { s with out := s.out ++ [.result r] }

def State.giveBool (s : State) (b : Bool) : State := s.give (.bool b)

/-! ### The end of a transfer: R575, R576, R590 -/

/-- Remove the transfer and emit its terminal event; the step ends (R575, R576). -/
def State.endTransfer (s : State) (k : Key) (e : OutEvent) : State := (s.removeTransfer k).emit e

def State.failTc (s : State) (r : TcRec) (kind : TcKind) : State :=
  s.endTransfer (.tc r.address r.channel) (.sendTcFailed r.address r.channel kind)
def State.failTm (s : State) (r : TmRec) (kind : TmKind) : State :=
  s.endTransfer (.tm r.address r.channel) (.receiveTmFailed r.address r.channel kind)
def State.failSb (s : State) (r : SbRec) (kind : SbKind) : State :=
  s.endTransfer (.sb r.address) (.sendBlockFailed r.address kind)
def State.failGb (s : State) (r : GbRec) (kind : GbKind) : State :=
  s.endTransfer (.gb r.address) (.receiveBlockFailed r.address kind)

def State.completeTc (s : State) (r : TcRec) : State :=
  s.endTransfer (.tc r.address r.channel) (.sendTcCompleted r.address r.channel)
def State.completeTm (s : State) (r : TmRec) (data : List Byte) : State :=
  s.endTransfer (.tm r.address r.channel) (.receiveTmCompleted r.address r.channel data)
def State.completeSb (s : State) (r : SbRec) : State :=
  s.endTransfer (.sb r.address) (.sendBlockCompleted r.address)
def State.completeGb (s : State) (r : GbRec) : State :=
  s.endTransfer (.gb r.address) (.receiveBlockCompleted r.address r.data)

/-! ### Link drivers -/

def State.link (s : State) : Bus → Link
  | .nominal => s.nominal
  | .redundant => s.redundant

def State.setLink (s : State) (b : Bus) (l : Link) : State :=
  match b with
  | .nominal => { s with nominal := l }
  | .redundant => { s with redundant := l }

/-- The answer the driver of bus `b` gives to its next `open` or `send`: the environment's, or a free value (R310 (a)). -/
def Link.nextAnswer (b : Bus) (l : Link) : Bool :=
  match l.answers with
  | a :: _ => a
  | [] => Config.driverAnswer b l.asked

/-- The driver after it has given that answer. -/
def Link.answered (l : Link) : Link := { l with answers := l.answers.tail, asked := l.asked + 1 }

/-- Whether the active driver takes the frame it is offered: a closed driver accepts none (R36), an open one answers as
it will (R290, R310). -/
def State.accepts (s : State) : Bool :=
  (s.link s.activeBus).isOpen && (s.link s.activeBus).nextAnswer s.activeBus

/-- The driver after it was offered a frame: an accepted frame is in flight (R53), a refused one leaves only the driver's
answer given, and a closed driver is not asked (R36). -/
def Link.offer (b : Bus) (c : CanFrame) (l : Link) : Link :=
  if l.isOpen then
    (if l.nextAnswer b then { l.answered with inFlight := l.inFlight ++ [c] } else l.answered)
  else l

/-- The state after `send_frame(f)` (R290): only the active driver may have changed. -/
def State.afterSend (s : State) (f : LogicalFrame) : State :=
  s.setLink s.activeBus ((s.link s.activeBus).offer s.activeBus (encodeFrame f))

/-- The link after `open(port_name, baud)` answered true: open, nothing in flight (R310, R611). -/
def Link.openWith (l : Link) (ps : PortSettings) : Link := { l.answered with state := .opened ps, inFlight := [] }

/-- The link after `close()`: its in-flight frames are discarded and never confirmed (R310 (b), R524). -/
def Link.closed (l : Link) : Link := { l with state := .closed, inFlight := [] }

/-- The confirmed frame leaves the driver's in-flight frames (R53, R310 (b)). -/
def State.settle (s : State) (b : Bus) (c : CanFrame) : State :=
  s.setLink b { s.link b with inFlight := (s.link b).inFlight.erase c }

/-! ### Delivery -/

/-- The driver of bus `b` delivers notifications: the engine runs and the driver is open (R34, R36, R310 (e)). -/
def State.delivers (s : State) (b : Bus) : Bool := s.running && (s.link b).isOpen

/-- A frame received on the active bus for the local node (R292); any other is ignored (R295, R296). -/
def receiveLocal (b : Bus) (toAddr : Byte) (s : State) (h : State → Result) : Result :=
  if s.delivers b = true ∧ b = s.activeBus ∧ toAddr = s.address then h s else .next s

/-- A confirmation of `c` from bus `b`: the frame leaves the driver, and the engine consumes the confirmation on the
active bus only (R297). -/
def confirm (b : Bus) (c : CanFrame) (s : State) (h : State → Result) : Result :=
  if s.delivers b then
    (if b = s.activeBus then h (s.settle b c) else .next (s.settle b c))
  else .next s

/-- The CAN frame of a logical frame the engine never builds is confirmed without effect (R299). -/
def confirmIgnored (b : Bus) (f : LogicalFrame) (s : State) : Result :=
  confirm b (encodeFrame f) s fun s => .next s

end Sys2Proof.Machine
end

