-- ==== Sys2Proof/Machine/Auxiliary.lean ====
section
/-! DEFINITION. Time-sync, unsolicited and keep-alive (spec/47_aux.md R490 to R498) and the frames of the reserved types
(R130): the meanings of their frame kinds and of SendTimeSync and SendUnsolicited. -/

namespace Sys2Proof.Machine

/-! ### Handlers -/

/-- Time-sync sent or not sent (R491). -/
def State.timeSyncSent (s : State) (data : List Byte) : State := s.emit (.sendTimeSyncCompleted (leValue data))
def State.timeSyncError (s : State) (data : List Byte) : State := s.emit (.sendTimeSyncFailed (leValue data))

/-- Unsolicited sent or not sent (R494). -/
def State.unsolSent (s : State) (toAddr ch : Byte) : State := s.emit (.sendUnsolicitedCompleted toAddr ch)
def State.unsolError (s : State) (toAddr ch : Byte) : State := s.emit (.sendUnsolicitedFailed toAddr ch)

/-- `UnsolicitedReceived` (R495). -/
def State.unsolReceived (s : State) (fromAddr ch : Byte) (data : List Byte) : State :=
  s.emit (.unsolicitedReceived fromAddr ch data)

/-- `KeepAliveReceivedNominal` (R496): the active bus. -/
def State.keepAliveActive (s : State) (fromAddr ch : Byte) (data : List Byte) : State :=
  s.emit (.keepAliveReceivedNominal fromAddr ch data)

/-- `KeepAliveReceivedRedundant` (R497): the inactive bus. -/
def State.keepAliveInactive (s : State) (fromAddr ch : Byte) (data : List Byte) : State :=
  s.emit (.keepAliveReceivedRedundant fromAddr ch data)

/-- `TimeSyncReceived` (R498). -/
def State.timeSyncIn (s : State) (fromAddr : Byte) (data : List Byte) : State :=
  s.emit (.timeSyncReceived fromAddr data)

/-! ### Meanings: frame kinds -/

/-- UNSOL: received for the local node (R495), confirmed or not sent (R494). -/
def execUnsol (p : Port) (toAddr fromAddr ch : Byte) (data : List Byte) (s : State) : Result :=
  match p.notice with
  | .received => receiveLocal p.bus toAddr s fun s => .next (s.unsolReceived fromAddr ch data)
  | .sent => confirm p.bus (encodeFrame (unsolFrame toAddr fromAddr ch data)) s fun s => .next (s.unsolSent toAddr ch)
  | .sendError _ =>
    confirm p.bus (encodeFrame (unsolFrame toAddr fromAddr ch data)) s fun s => .next (s.unsolError toAddr ch)

/-- KEEPALIVE: received on the active bus (R293, R496) or the inactive bus (R296, R497). SendUnsolicited to 0x01 builds the
same shape (C11), so its confirmation is that of an unsolicited frame (R494). The classifier asks for the local address
first (R295), which is never 0x01 while the engine runs. -/
def execKeepalive (p : Port) (fromAddr ch : Byte) (data : List Byte) (s : State) : Result :=
  match p.notice with
  | .received =>
    if s.delivers p.bus then
      if p.bus = s.activeBus then
        if s.address = Config.keepAliveAddress then .next (s.unsolReceived fromAddr ch data)
        else .next (s.keepAliveActive fromAddr ch data)
      else .next (s.keepAliveInactive fromAddr ch data)
    else .next s
  | .sent =>
    confirm p.bus (encodeFrame (unsolFrame Config.keepAliveAddress fromAddr ch data)) s fun s =>
      .next (s.unsolSent Config.keepAliveAddress ch)
  | .sendError _ =>
    confirm p.bus (encodeFrame (unsolFrame Config.keepAliveAddress fromAddr ch data)) s fun s =>
      .next (s.unsolError Config.keepAliveAddress ch)

/-- TIMESYNC: received on the active bus (R294, R498), confirmed or not sent (R491). The classifier asks for the local
address first (R295), which is never 0x00 while the engine runs. -/
def execTimesync (p : Port) (fromAddr : Byte) (data : List Byte) (s : State) : Result :=
  match p.notice with
  | .received =>
    if s.delivers p.bus = true ∧ p.bus = s.activeBus ∧ s.address ≠ Config.timeSyncAddress then
      .next (s.timeSyncIn fromAddr data)
    else .next s
  | .sent => confirm p.bus (encodeFrame (timesyncFrame fromAddr data)) s fun s => .next (s.timeSyncSent data)
  | .sendError _ => confirm p.bus (encodeFrame (timesyncFrame fromAddr data)) s fun s => .next (s.timeSyncError data)

/-- Transfer type 6: ignored (R130). -/
def execType6Reserved (p : Port) (toAddr fromAddr : Byte) (data : List Byte) (s : State) : Result :=
  match p.notice with
  | .received => .next s
  | .sent => confirmIgnored p.bus (reservedFrame .reserved6 toAddr fromAddr data) s
  | .sendError _ => confirmIgnored p.bus (reservedFrame .reserved6 toAddr fromAddr data) s

/-- Transfer type 7: ignored (R130). -/
def execType7Reserved (p : Port) (toAddr fromAddr : Byte) (data : List Byte) (s : State) : Result :=
  match p.notice with
  | .received => .next s
  | .sent => confirmIgnored p.bus (reservedFrame .reserved7 toAddr fromAddr data) s
  | .sendError _ => confirmIgnored p.bus (reservedFrame .reserved7 toAddr fromAddr data) s

/-! ### Meanings: commands -/

/-- SendTimeSync (R490, R529, R566). -/
def execSendTimeSync (time : Word64) (s : State) : Result :=
  if s.running = false then .next (s.giveBool false)
  else
    let s' := s.afterSend (timesyncOut s.address time)
    if s.accepts then .next (s'.giveBool true)
    else .next ((s'.emit (.sendTimeSyncFailed time)).giveBool false)

/-- SendUnsolicited (R492, R493, R529, R566); 0x01 is accepted (C11). -/
def execSendUnsolicited (addr ch : Byte) (data : List Byte) (s : State) : Result :=
  if s.running = false then .next (s.giveBool false)
  else if addr = Config.timeSyncAddress ∨ data.length > 8 then .next (s.giveBool false)
  else
    let s' := s.afterSend (unsolOut s.address addr ch data)
    if s.accepts then .next (s'.giveBool true)
    else .next ((s'.emit (.sendUnsolicitedFailed addr ch)).giveBool false)

end Sys2Proof.Machine
end

