-- ==== Sys2Proof/Machine/GetBlock.lean ====
section
/-! DEFINITION. The get-block initiator (spec/46_gb.md R440 to R477): its handlers, the meanings of the eight GB frame
kinds, of ReceiveBlock, and of its watchdog fire. -/

namespace Sys2Proof.Machine

/-! ### Sending -/

/-- Send frame `f` of a record: the record enters `tx` if the driver takes the frame and fails with `kind` if not (R474). -/
def State.gbHandOff (s : State) (r : GbRec) (f : LogicalFrame) (tx : GbTx) (kind : GbKind) : State :=
  if s.accepts then (s.afterSend f).putGb { r with tx := tx } else (s.afterSend f).failGb r kind

/-- Send START with the record's current bitmap (R232, R443, R472). -/
def State.gbSendStart (s : State) (r : GbRec) : State :=
  s.gbHandOff r (gbStartFrame s.address r) .sendingStart .sendStartFailed

/-- Send ABORT (R466, R473). -/
def State.gbSendAbort (s : State) (r : GbRec) : State :=
  s.gbHandOff r (gbAbortFrame s.address r) .sendingAbort .sendAbortFailed

/-! ### Retry policies -/

/-- `ReceiveBlockRetryRequest` (R470). -/
def State.gbRetryRequest (s : State) (r : GbRec) : State :=
  if r.retryCount > r.maxRetries then s.failGb r .maxSendRequestRetriesReached
  else s.gbHandOff r (gbRequestFrame s.address r) .sendingRequest .sendRequestFailed

/-- `ReceiveBlockRetryStart` (R472). -/
def State.gbRetryStart (s : State) (r : GbRec) : State :=
  if r.startRetryCount > r.maxStartRetries then s.failGb r .maxSendStartRetriesReached else s.gbSendStart r

/-- `ReceiveBlockRetryAbort` (R473). -/
def State.gbRetryAbort (s : State) (r : GbRec) : State :=
  if r.retryCount > r.maxRetries then s.failGb r .maxSendAbortRetriesReached else s.gbSendAbort r

/-! ### Confirmations -/

/-- GB REQUEST confirmed (R442). -/
def State.gbRequestSent (s : State) (toAddr : Byte) : State :=
  match s.lookupGb toAddr with
  | some r =>
    if r.tx = .sendingRequest then
      s.putGb { r with wd := .armed s.timeoutMs, tx := .idle, rx := .waitingForRequestAck,
                       retryCount := r.retryCount + 1 }
    else s
  | none => s

/-- GB START confirmed (R445): `retry_count` is not changed. -/
def State.gbStartSent (s : State) (toAddr : Byte) : State :=
  match s.lookupGb toAddr with
  | some r =>
    if r.tx = .sendingStart then
      s.putGb { r with wd := .armed s.timeoutMs, tx := .idle, rx := .waitingForData,
                       startRetryCount := r.startRetryCount + 1 }
    else s
  | none => s

/-- GB ABORT confirmed (R469). -/
def State.gbAbortSent (s : State) (toAddr : Byte) : State :=
  match s.lookupGb toAddr with
  | some r =>
    if r.tx = .sendingAbort then
      s.putGb { r with wd := .armed s.timeoutMs, tx := .idle, rx := .waitingForAbortAck,
                       retryCount := r.retryCount + 1 }
    else s
  | none => s

/-- GB send error (R474): the record fails with the kind of its in-flight frame. -/
def State.gbFrameError (s : State) (toAddr : Byte) (tx : GbTx) (kind : GbKind) : State :=
  match s.lookupGb toAddr with
  | some r => if r.tx = tx then s.failGb r kind else s
  | none => s

/-! ### Responses -/

/-- GB ACK: request-ACK (R443), ABORT-ACK (R467), otherwise ignored (R475). -/
def State.gbOnAck (s : State) (fromAddr : Byte) (num : Seq) (data : List Byte) : State :=
  match s.lookupGb fromAddr with
  | some r =>
    match r.rx with
    | .waitingForRequestAck =>
      if requestAckValid r.blocks r.start num data then s.gbSendStart { r with wd := .idle, rx := .idle } else s
    | .waitingForAbortAck =>
      if abortAckValid num data then
        (if r.startRetryCount > r.maxStartRetries then s.failGb r .maxSendStartRetriesReached else s.completeGb r)
      else s
    | .idle => s
    | .waitingForData => s
  | none => s

/-- GB NACK by the state it meets (R444, R446, R468), otherwise ignored (R475). -/
def State.gbOnNack (s : State) (fromAddr : Byte) (num : Seq) (data : List Byte) : State :=
  match s.lookupGb fromAddr with
  | some r =>
    match r.rx with
    | .waitingForRequestAck => s.gbRetryRequest { r with wd := .idle, rx := .idle }
    | .waitingForData => s.gbRetryStart { r with wd := .idle, rx := .idle }
    | .waitingForAbortAck => if abortAckValid num data then s.failGb r .abortNackReceived else s
    | .idle => s
  | none => s

/-- What a valid TRANSFER leaves of the watchdog while frames are outstanding (R465). -/
def dataWatchdog (p : GbDataWatchdog) (timeoutMs : Word32) : Timer :=
  match p with
  | .restart => .armed timeoutMs
  | .stop => .idle

/-- After a valid TRANSFER: ABORT if every frame has arrived (R466), otherwise the watchdog of R465. -/
def State.gbAfterTransfer (s : State) (r : GbRec) : Result :=
  checked (allCleared r.bitmap r.blocks.toNat) fun complete =>
    if complete then .next (s.gbSendAbort { r with rx := .idle })
    else .next (s.putGb { r with wd := dataWatchdog s.params.gbDataWatchdog s.timeoutMs })

/-- GB TRANSFER (R460 to R466). -/
def State.gbOnTransfer (s : State) (fromAddr : Byte) (seq : Seq) (data : List Byte) : Result :=
  match s.lookupGb fromAddr with
  | some r =>
    if r.rx = .waitingForData ∧ data.length = 8 ∧ seq.toNat < r.blocks.toNat then
      checked (isBitSet r.bitmap seq.toNat) fun outstanding =>
        if outstanding then
          checked (clearBit r.bitmap seq.toNat) fun bitmap =>
            checked (memWrite r.data (8 * seq.toNat) data) fun buf =>
              s.gbAfterTransfer { r with wd := .idle, retryCount := 0, bitmap := bitmap, data := buf }
        else .next s
    else .next s
  | none => .next s

/-! ### Meanings: GB frame kinds -/

/-- GB.REQUEST: confirmed (R442), send error (R474), ignored when received (R122). -/
def execGbRequest (p : Port) (toAddr fromAddr : Byte) (num : Seq) (data : List Byte) (s : State) : Result :=
  let c := encodeFrame (gbFrame .request toAddr fromAddr num data)
  match p.notice with
  | .received => .next s
  | .sent => confirm p.bus c s fun s => .next (s.gbRequestSent toAddr)
  | .sendError _ => confirm p.bus c s fun s => .next (s.gbFrameError toAddr .sendingRequest .sendRequestFailed)

/-- GB with the reserved code 1: ignored (R132, R475). -/
def execGbReservedFt1 (p : Port) (toAddr fromAddr : Byte) (num : Seq) (data : List Byte) (s : State) : Result :=
  match p.notice with
  | .received => .next s
  | .sent => confirmIgnored p.bus (gbFrame .reserved1 toAddr fromAddr num data) s
  | .sendError _ => confirmIgnored p.bus (gbFrame .reserved1 toAddr fromAddr num data) s

/-- GB.ACK (R231, R443, R467). -/
def execGbAck (p : Port) (toAddr fromAddr : Byte) (num : Seq) (data : List Byte) (s : State) : Result :=
  match p.notice with
  | .received => receiveLocal p.bus toAddr s fun s => .next (s.gbOnAck fromAddr num data)
  | .sent => confirmIgnored p.bus (gbFrame .ack toAddr fromAddr num data) s
  | .sendError _ => confirmIgnored p.bus (gbFrame .ack toAddr fromAddr num data) s

/-- GB.ABORT: confirmed (R469), send error (R474), ignored when received (R122). -/
def execGbAbort (p : Port) (toAddr fromAddr : Byte) (num : Seq) (data : List Byte) (s : State) : Result :=
  let c := encodeFrame (gbFrame .abort toAddr fromAddr num data)
  match p.notice with
  | .received => .next s
  | .sent => confirm p.bus c s fun s => .next (s.gbAbortSent toAddr)
  | .sendError _ => confirm p.bus c s fun s => .next (s.gbFrameError toAddr .sendingAbort .sendAbortFailed)

/-- GB.NACK (R235, R444, R446, R468). -/
def execGbNack (p : Port) (toAddr fromAddr : Byte) (num : Seq) (data : List Byte) (s : State) : Result :=
  match p.notice with
  | .received => receiveLocal p.bus toAddr s fun s => .next (s.gbOnNack fromAddr num data)
  | .sent => confirmIgnored p.bus (gbFrame .nack toAddr fromAddr num data) s
  | .sendError _ => confirmIgnored p.bus (gbFrame .nack toAddr fromAddr num data) s

/-- GB with the reserved code 5: ignored (R132, R475). -/
def execGbReservedFt5 (p : Port) (toAddr fromAddr : Byte) (num : Seq) (data : List Byte) (s : State) : Result :=
  match p.notice with
  | .received => .next s
  | .sent => confirmIgnored p.bus (gbFrame .reserved5 toAddr fromAddr num data) s
  | .sendError _ => confirmIgnored p.bus (gbFrame .reserved5 toAddr fromAddr num data) s

/-- GB.START: confirmed (R445), send error (R474), ignored when received (R122). -/
def execGbStart (p : Port) (toAddr fromAddr : Byte) (num : Seq) (data : List Byte) (s : State) : Result :=
  let c := encodeFrame (gbFrame .start toAddr fromAddr num data)
  match p.notice with
  | .received => .next s
  | .sent => confirm p.bus c s fun s => .next (s.gbStartSent toAddr)
  | .sendError _ => confirm p.bus c s fun s => .next (s.gbFrameError toAddr .sendingStart .sendStartFailed)

/-- GB.TRANSFER (R233, R460 to R466). -/
def execGbTransfer (p : Port) (toAddr fromAddr : Byte) (seq : Seq) (data : List Byte) (s : State) : Result :=
  match p.notice with
  | .received => receiveLocal p.bus toAddr s fun s => s.gbOnTransfer fromAddr seq data
  | .sent => confirmIgnored p.bus (gbFrame .transfer toAddr fromAddr seq data) s
  | .sendError _ => confirmIgnored p.bus (gbFrame .transfer toAddr fromAddr seq data) s

/-! ### Meanings: command and watchdog -/

/-- ReceiveBlock (R440, R441, R529, R566). -/
def execReceiveBlock (addr : Byte) (startAddress : Word64) (length : Nat) (retry startRetry : Byte) (s : State) : Result :=
  if s.running = false then .next (s.giveBool false)
  else if isBroadcast addr then .next (s.giveBool false)
  else if (s.lookupGb addr).isSome then .next (s.giveBool false)
  else if length < 1 ∨ length > 64 then .next (s.giveBool false)
  else
    checked (setFirstN (bmZero length) length) fun bitmap =>
      let r := newGbRec addr startAddress length bitmap retry startRetry
      let s' := s.afterSend (gbRequestFrame s.address r)
      if s.accepts then .next ((s'.putGb r).giveBool true)
      else .next ((s'.emit (.receiveBlockFailed addr .sendRequestFailed)).giveBool false)

/-- GB watchdog fire: the retry of the state it left, or always REQUEST (R471). -/
def execWdFireGb (addr : Byte) (s : State) : Result :=
  match s.lookupGb addr with
  | some r =>
    if s.running && r.wd.isArmed then
      let r' := { r with wd := .idle, rx := .idle }
      match s.params.watchdogDispatch with
      | .literal => .next (s.gbRetryRequest r')
      | .perState =>
        match r.rx with
        | .waitingForRequestAck => .next (s.gbRetryRequest r')
        | .waitingForData => .next (s.gbRetryStart r')
        | .waitingForAbortAck => .next (s.gbRetryAbort r')
        | .idle => .next (s.gbRetryAbort r')
    else .next s
  | none => .next s

end Sys2Proof.Machine
end

