-- ==== Sys2Proof/Machine/SetBlock.lean ====
section
/-! DEFINITION. The set-block initiator (spec/45_sb.md R380 to R426): its handlers, the meanings of the eight SB frame
kinds, of SendBlock, and of its watchdog and report-delay fires. -/

namespace Sys2Proof.Machine

/-! ### Sending -/

/-- Send frame `f` of a record: the record enters `tx` if the driver takes the frame and fails with `kind` if not (R408). -/
def State.sbHandOff (s : State) (r : SbRec) (f : LogicalFrame) (tx : SbTx) (kind : SbKind) : State :=
  if s.accepts then (s.afterSend f).putSb { r with tx := tx } else (s.afterSend f).failSb r kind

/-- Send TRANSFER(k) (R383, R386, R398). -/
def State.sbSendTransfer (s : State) (r : SbRec) (k : Nat) : Result :=
  checked (sbTransferFrame s.address r k) fun f => .next (s.sbHandOff r f .sendingData .sendDataFailed)

/-- `sb_send_abort(T)` (R403). -/
def State.sbSendAbort (s : State) (r : SbRec) : State :=
  s.sbHandOff r (sbAbortFrame s.address r) .sendingAbort .sendAbortFailed

/-- Send STATUS (R388, R405). -/
def State.sbSendStatus (s : State) (r : SbRec) : State :=
  s.sbHandOff r (sbStatusFrame s.address r) .sendingStatusRequest .sendStatusRequestFailed

/-! ### Retry policies -/

/-- `SendBlockRetryRequest` (R404). -/
def State.sbRetryRequest (s : State) (r : SbRec) : State :=
  if r.retryCount > r.maxRetries then s.failSb r .maxSendRequestRetriesReached
  else s.sbHandOff r (sbRequestFrame s.address r) .sendingRequest .sendRequestFailed

/-- `SendBlockRetryStatus` (R405). -/
def State.sbRetryStatus (s : State) (r : SbRec) : State :=
  if r.retryCount > r.maxRetries then s.failSb r .maxSendStatusRetriesReached else s.sbSendStatus r

/-- `SendBlockRetryAbort` (R406). -/
def State.sbRetryAbort (s : State) (r : SbRec) : Result :=
  if r.retryCount > r.maxRetries then
    checked (successPath r) fun ok =>
      .next (s.failSb r (if ok then .maxSendAbortRetriesReached else .maxReportRetriesReached))
  else .next (s.sbSendAbort r)

/-! ### Confirmations -/

/-- The confirmed frame expects an answer: the watchdog starts and the frame is counted (R382, R389, R399). -/
def SbRec.awaiting (r : SbRec) (timeoutMs : Word32) (rx : BlkRx) : SbRec :=
  { r with wd := .armed timeoutMs, tx := .idle, rx := rx, retryCount := r.retryCount + 1 }

/-- SB REQUEST confirmed (R382). -/
def State.sbRequestSent (s : State) (toAddr : Byte) : State :=
  match s.lookupSb toAddr with
  | some r => if r.tx = .sendingRequest then s.putSb (r.awaiting s.timeoutMs .waitingForRequestAck) else s
  | none => s

/-- SB STATUS confirmed (R389). -/
def State.sbStatusSent (s : State) (toAddr : Byte) : State :=
  match s.lookupSb toAddr with
  | some r => if r.tx = .sendingStatusRequest then s.putSb (r.awaiting s.timeoutMs .waitingForData) else s
  | none => s

/-- SB ABORT confirmed (R399). -/
def State.sbAbortSent (s : State) (toAddr : Byte) : State :=
  match s.lookupSb toAddr with
  | some r => if r.tx = .sendingAbort then s.putSb (r.awaiting s.timeoutMs .waitingForAbortAck) else s
  | none => s

/-- SB TRANSFER confirmed (R386, R387): mark the frame, then send the lowest unmarked one or arm the report delay. -/
def State.sbTransferSent (s : State) (toAddr : Byte) (seq : Seq) : Result :=
  match s.lookupSb toAddr with
  | some r =>
    if r.tx = .sendingData ∧ seq.toNat < r.blocks.toNat then
      checked (setBit r.bitmap seq.toNat) fun bitmap =>
        checked (firstClear bitmap r.blocks.toNat) fun unsent =>
          match unsent with
          | some k => s.sbSendTransfer { r with bitmap := bitmap } k
          | none =>
            .next (s.putSb { r with bitmap := bitmap, rd := .armed r.reportDelayMs, tx := .waitingForSendStatusRequest })
    else .next s
  | none => .next s

/-- SB send error (R407, R408): the record fails with the kind of its in-flight frame. -/
def State.sbFrameError (s : State) (toAddr : Byte) (tx : SbTx) (kind : SbKind) : State :=
  match s.lookupSb toAddr with
  | some r => if r.tx = tx then s.failSb r kind else s
  | none => s

/-! ### Responses -/

/-- SB ACK: request-ACK (R383, R384), ABORT-ACK (R400), otherwise ignored (R409). -/
def State.sbOnAck (s : State) (fromAddr : Byte) (num : Seq) (data : List Byte) : Result :=
  match s.lookupSb fromAddr with
  | some r =>
    match r.rx with
    | .waitingForRequestAck =>
      if requestAckValid r.blocks r.start num data then s.sbSendTransfer { r with wd := .idle, rx := .idle } 0
      else .next s
    | .waitingForAbortAck =>
      if abortAckValid num data then
        checked (successPath r) fun ok => .next (if ok then s.completeSb r else s.failSb r .maxReportRetriesReached)
      else .next s
    | .idle => .next s
    | .waitingForData => .next s
  | none => .next s

/-- SB NACK by the state it meets (R385, R390, R402), otherwise ignored (R409). -/
def State.sbOnNack (s : State) (fromAddr : Byte) (num : Seq) (data : List Byte) : Result :=
  match s.lookupSb fromAddr with
  | some r =>
    match r.rx with
    | .waitingForRequestAck => .next (s.sbRetryRequest { r with wd := .idle, rx := .idle })
    | .waitingForData => .next (s.sbRetryStatus { r with wd := .idle, rx := .idle })
    | .waitingForAbortAck =>
      if abortAckValid num data then
        checked (successPath r) fun ok =>
          .next (s.failSb r (if ok then .abortNackReceived else .maxReportRetriesReached))
      else .next s
    | .idle => .next s
  | none => .next s

/-- A valid REPORT on a record it has updated (R394 to R398), the branches in the spec's order. -/
def State.sbReportBranch (s : State) (r : SbRec) : Result :=
  checked (firstClear r.bitmap r.blocks.toNat) fun missing =>
    if r.done && missing.isNone then .next (s.sbSendAbort r)
    else if r.reportRetryCount > r.maxReportRetries then .next (s.sbSendAbort r)
    else
      let r' := { r with reportRetryCount := r.reportRetryCount + 1 }
      match missing with
      | none => .next (s.putSb { r' with rd := .armed r.reportDelayMs, tx := .waitingForSendStatusRequest })
      | some k => s.sbSendTransfer r' k

/-- SB REPORT (R391 to R398). -/
def State.sbOnReport (s : State) (fromAddr : Byte) (done : Bool) (data : List Byte) : Result :=
  match s.lookupSb fromAddr with
  | some r =>
    if r.rx = .waitingForData then
      checked (reportValid r.blocks done data) fun ok =>
        if ok then s.sbReportBranch { r with wd := .idle, rx := .idle, bitmap := data, done := done } else .next s
    else .next s
  | none => .next s

/-! ### Meanings: SB frame kinds -/

/-- SB.REQUEST: confirmed (R382), send error (R407), ignored when received (R122). -/
def execSbRequest (p : Port) (toAddr fromAddr : Byte) (num : Seq) (data : List Byte) (s : State) : Result :=
  let c := encodeFrame (sbFrame .request toAddr fromAddr false num data)
  match p.notice with
  | .received => .next s
  | .sent => confirm p.bus c s fun s => .next (s.sbRequestSent toAddr)
  | .sendError _ => confirm p.bus c s fun s => .next (s.sbFrameError toAddr .sendingRequest .sendRequestFailed)

/-- SB.TRANSFER: confirmed (R386), send error (R407), ignored when received (R122). -/
def execSbTransfer (p : Port) (toAddr fromAddr : Byte) (seq : Seq) (data : List Byte) (s : State) : Result :=
  let c := encodeFrame (sbFrame .transfer toAddr fromAddr false seq data)
  match p.notice with
  | .received => .next s
  | .sent => confirm p.bus c s fun s => s.sbTransferSent toAddr seq
  | .sendError _ => confirm p.bus c s fun s => .next (s.sbFrameError toAddr .sendingData .sendDataFailed)

/-- SB.ACK (R221, R383, R384, R400). -/
def execSbAck (p : Port) (toAddr fromAddr : Byte) (num : Seq) (data : List Byte) (s : State) : Result :=
  match p.notice with
  | .received => receiveLocal p.bus toAddr s fun s => s.sbOnAck fromAddr num data
  | .sent => confirmIgnored p.bus (sbFrame .ack toAddr fromAddr false num data) s
  | .sendError _ => confirmIgnored p.bus (sbFrame .ack toAddr fromAddr false num data) s

/-- SB.ABORT: confirmed (R399), send error (R407), ignored when received (R122). -/
def execSbAbort (p : Port) (toAddr fromAddr : Byte) (num : Seq) (data : List Byte) (s : State) : Result :=
  let c := encodeFrame (sbFrame .abort toAddr fromAddr false num data)
  match p.notice with
  | .received => .next s
  | .sent => confirm p.bus c s fun s => .next (s.sbAbortSent toAddr)
  | .sendError _ => confirm p.bus c s fun s => .next (s.sbFrameError toAddr .sendingAbort .sendAbortFailed)

/-- SB.NACK (R226, R385, R390, R402). -/
def execSbNack (p : Port) (toAddr fromAddr : Byte) (num : Seq) (data : List Byte) (s : State) : Result :=
  match p.notice with
  | .received => receiveLocal p.bus toAddr s fun s => s.sbOnNack fromAddr num data
  | .sent => confirmIgnored p.bus (sbFrame .nack toAddr fromAddr false num data) s
  | .sendError _ => confirmIgnored p.bus (sbFrame .nack toAddr fromAddr false num data) s

/-- SB with the reserved code 5: ignored (R132, R409). -/
def execSbReservedFt5 (p : Port) (toAddr fromAddr : Byte) (num : Seq) (data : List Byte) (s : State) : Result :=
  match p.notice with
  | .received => .next s
  | .sent => confirmIgnored p.bus (sbFrame .reserved5 toAddr fromAddr false num data) s
  | .sendError _ => confirmIgnored p.bus (sbFrame .reserved5 toAddr fromAddr false num data) s

/-- SB.STATUS: confirmed (R389), send error (R407), ignored when received (R122). -/
def execSbStatus (p : Port) (toAddr fromAddr : Byte) (num : Seq) (data : List Byte) (s : State) : Result :=
  let c := encodeFrame (sbFrame .status toAddr fromAddr false num data)
  match p.notice with
  | .received => .next s
  | .sent => confirm p.bus c s fun s => .next (s.sbStatusSent toAddr)
  | .sendError _ =>
    confirm p.bus c s fun s => .next (s.sbFrameError toAddr .sendingStatusRequest .sendStatusRequestFailed)

/-- SB.REPORT (R224, R391 to R398); its `seq_or_num` is ignored. -/
def execSbReport (p : Port) (toAddr fromAddr : Byte) (done : Bool) (num : Seq) (data : List Byte) (s : State) : Result :=
  match p.notice with
  | .received => receiveLocal p.bus toAddr s fun s => s.sbOnReport fromAddr done data
  | .sent => confirmIgnored p.bus (sbFrame .report toAddr fromAddr done num data) s
  | .sendError _ => confirmIgnored p.bus (sbFrame .report toAddr fromAddr done num data) s

/-! ### Meanings: command and timers -/

/-- SendBlock (R380, R381, R529, R566). -/
def execSendBlock (addr : Byte) (startAddress : Word64) (data : List Byte) (retry : Byte) (reportDelayMs : Word32)
    (reportRetry : Byte) (s : State) : Result :=
  let r := newSbRec addr startAddress data retry reportDelayMs reportRetry
  if s.running = false then .next (s.giveBool false)
  else if isBroadcast addr then .next (s.giveBool false)
  else if (s.lookupSb addr).isSome then .next (s.giveBool false)
  else if data.length < 1 ∨ data.length > 512 then .next (s.giveBool false)
  else
    let s' := s.afterSend (sbRequestFrame s.address r)
    if s.accepts then .next ((s'.putSb r).giveBool true)
    else .next ((s'.emit (.sendBlockFailed addr .sendRequestFailed)).giveBool false)

/-- SB watchdog fire: the retry of the state it left, or always STATUS (R420, R421). -/
def execWdFireSb (addr : Byte) (s : State) : Result :=
  match s.lookupSb addr with
  | some r =>
    if s.running && r.wd.isArmed then
      let r' := { r with wd := .idle, rx := .idle }
      match s.params.watchdogDispatch with
      | .literal => .next (s.sbRetryStatus r')
      | .perState =>
        match r.rx with
        | .waitingForRequestAck => .next (s.sbRetryRequest r')
        | .waitingForData => .next (s.sbRetryStatus r')
        | .waitingForAbortAck => s.sbRetryAbort r'
        | .idle => s.sbRetryAbort r'
    else .next s
  | none => .next s

/-- SB report-delay fire: STATUS is sent (R388). -/
def execRdFireSb (addr : Byte) (s : State) : Result :=
  match s.lookupSb addr with
  | some r => if s.running && r.rd.isArmed then .next (s.sbSendStatus { r with rd := .idle }) else .next s
  | none => .next s

end Sys2Proof.Machine
end

