-- ==== Sys2Proof/Machine/TcTm.lean ====
section
/-! DEFINITION. The telecommand and telemetry initiators (spec/44_tc_tm.md R340 to R360): their handlers, the meanings of
the eight frame kinds of CMD-TT, of SendTC and ReceiveTM, and of their two watchdog fires. -/

namespace Sys2Proof.Machine

/-! ### Handlers: telecommand -/

/-- Send the REQUEST of a record: in SendingRequest if the driver takes it, failed if not (R341, R346). -/
def State.tcHandOff (s : State) (r : TcRec) : State :=
  let s' := s.afterSend (tcRequestFrame s.address r)
  if s.accepts then s'.putTc { r with tx := .sendingRequest } else s'.failTc r .sendRequestFailed

/-- `tc_retry(T)` (R346): the guard is tested before the send. -/
def State.tcRetry (s : State) (r : TcRec) : State :=
  if r.retryCount > r.maxRetries then s.failTc r .maxRetriesReached else s.tcHandOff r

/-- TC REQUEST confirmed (R342). -/
def State.tcRequestSent (s : State) (toAddr ch : Byte) : State :=
  match s.lookupTc toAddr ch with
  | some r =>
    if r.tx = .sendingRequest then
      s.putTc { r with wd := .armed s.timeoutMs, tx := .idle, rx := .waitingForRequestAck,
                       retryCount := r.retryCount + 1 }
    else s
  | none => s

/-- TC send error (R347). -/
def State.tcRequestError (s : State) (toAddr ch : Byte) : State :=
  match s.lookupTc toAddr ch with
  | some r => if r.tx = .sendingRequest then s.failTc r .sendRequestFailed else s
  | none => s

/-- TC ACK (R344); its data field is not read (R201). -/
def State.tcOnAck (s : State) (fromAddr ch : Byte) : State :=
  match s.lookupTc fromAddr ch with
  | some r => if r.rx = .waitingForRequestAck then s.completeTc r else s
  | none => s

/-- TC NACK (R343); its data field is not read (R202). -/
def State.tcOnNack (s : State) (fromAddr ch : Byte) : State :=
  match s.lookupTc fromAddr ch with
  | some r => if r.rx = .waitingForRequestAck then s.tcRetry { r with wd := .idle, rx := .idle } else s
  | none => s

/-! ### Handlers: telemetry -/

/-- As `tcHandOff`, for TM (R351, R356). -/
def State.tmHandOff (s : State) (r : TmRec) : State :=
  let s' := s.afterSend (tmRequestFrame s.address r)
  if s.accepts then s'.putTm { r with tx := .sendingRequest } else s'.failTm r .sendRequestFailed

/-- `tm_retry(T)` (R356). -/
def State.tmRetry (s : State) (r : TmRec) : State :=
  if r.retryCount > r.maxRetries then s.failTm r .maxRetriesReached else s.tmHandOff r

/-- TM REQUEST confirmed (R352). -/
def State.tmRequestSent (s : State) (toAddr ch : Byte) : State :=
  match s.lookupTm toAddr ch with
  | some r =>
    if r.tx = .sendingRequest then
      s.putTm { r with wd := .armed s.timeoutMs, tx := .idle, rx := .waitingForRequestAck,
                       retryCount := r.retryCount + 1 }
    else s
  | none => s

/-- TM send error (R357). -/
def State.tmRequestError (s : State) (toAddr ch : Byte) : State :=
  match s.lookupTm toAddr ch with
  | some r => if r.tx = .sendingRequest then s.failTm r .sendRequestFailed else s
  | none => s

/-- TM ACK (R354): the whole data field is the telemetry. -/
def State.tmOnAck (s : State) (fromAddr ch : Byte) (data : List Byte) : State :=
  match s.lookupTm fromAddr ch with
  | some r => if r.rx = .waitingForRequestAck then s.completeTm r data else s
  | none => s

/-- TM NACK (R353). -/
def State.tmOnNack (s : State) (fromAddr ch : Byte) : State :=
  match s.lookupTm fromAddr ch with
  | some r => if r.rx = .waitingForRequestAck then s.tmRetry { r with wd := .idle, rx := .idle } else s
  | none => s

/-! ### Meanings: TC frame kinds -/

/-- TC.REQUEST: confirmed (R342), send error (R347), ignored when received (R122, R348). -/
def execTcRequest (p : Port) (toAddr fromAddr ch : Byte) (data : List Byte) (s : State) : Result :=
  match p.notice with
  | .received => .next s
  | .sent => confirm p.bus (encodeFrame (tcFrame .request toAddr fromAddr ch data)) s fun s => .next (s.tcRequestSent toAddr ch)
  | .sendError _ =>
    confirm p.bus (encodeFrame (tcFrame .request toAddr fromAddr ch data)) s fun s => .next (s.tcRequestError toAddr ch)

/-- TC.ACK (R201, R344). -/
def execTcAck (p : Port) (toAddr fromAddr ch : Byte) (data : List Byte) (s : State) : Result :=
  match p.notice with
  | .received => receiveLocal p.bus toAddr s fun s => .next (s.tcOnAck fromAddr ch)
  | .sent => confirmIgnored p.bus (tcFrame .ack toAddr fromAddr ch data) s
  | .sendError _ => confirmIgnored p.bus (tcFrame .ack toAddr fromAddr ch data) s

/-- TC.NACK (R202, R343). -/
def execTcNack (p : Port) (toAddr fromAddr ch : Byte) (data : List Byte) (s : State) : Result :=
  match p.notice with
  | .received => receiveLocal p.bus toAddr s fun s => .next (s.tcOnNack fromAddr ch)
  | .sent => confirmIgnored p.bus (tcFrame .nack toAddr fromAddr ch data) s
  | .sendError _ => confirmIgnored p.bus (tcFrame .nack toAddr fromAddr ch data) s

/-- TC with the reserved code 3: ignored (R131, R348). -/
def execTcReservedFt3 (p : Port) (toAddr fromAddr ch : Byte) (data : List Byte) (s : State) : Result :=
  match p.notice with
  | .received => .next s
  | .sent => confirmIgnored p.bus (tcFrame .reserved3 toAddr fromAddr ch data) s
  | .sendError _ => confirmIgnored p.bus (tcFrame .reserved3 toAddr fromAddr ch data) s

/-! ### Meanings: TM frame kinds -/

/-- TM.REQUEST: confirmed (R352), send error (R357), ignored when received (R122, R358). -/
def execTmRequest (p : Port) (toAddr fromAddr ch : Byte) (data : List Byte) (s : State) : Result :=
  match p.notice with
  | .received => .next s
  | .sent => confirm p.bus (encodeFrame (tmFrame .request toAddr fromAddr ch data)) s fun s => .next (s.tmRequestSent toAddr ch)
  | .sendError _ =>
    confirm p.bus (encodeFrame (tmFrame .request toAddr fromAddr ch data)) s fun s => .next (s.tmRequestError toAddr ch)

/-- TM.ACK (R204, R354). -/
def execTmAck (p : Port) (toAddr fromAddr ch : Byte) (data : List Byte) (s : State) : Result :=
  match p.notice with
  | .received => receiveLocal p.bus toAddr s fun s => .next (s.tmOnAck fromAddr ch data)
  | .sent => confirmIgnored p.bus (tmFrame .ack toAddr fromAddr ch data) s
  | .sendError _ => confirmIgnored p.bus (tmFrame .ack toAddr fromAddr ch data) s

/-- TM.NACK (R205, R353). -/
def execTmNack (p : Port) (toAddr fromAddr ch : Byte) (data : List Byte) (s : State) : Result :=
  match p.notice with
  | .received => receiveLocal p.bus toAddr s fun s => .next (s.tmOnNack fromAddr ch)
  | .sent => confirmIgnored p.bus (tmFrame .nack toAddr fromAddr ch data) s
  | .sendError _ => confirmIgnored p.bus (tmFrame .nack toAddr fromAddr ch data) s

/-- TM with the reserved code 3: ignored (R131, R358). -/
def execTmReservedFt3 (p : Port) (toAddr fromAddr ch : Byte) (data : List Byte) (s : State) : Result :=
  match p.notice with
  | .received => .next s
  | .sent => confirmIgnored p.bus (tmFrame .reserved3 toAddr fromAddr ch data) s
  | .sendError _ => confirmIgnored p.bus (tmFrame .reserved3 toAddr fromAddr ch data) s

/-! ### Meanings: commands and watchdogs -/

/-- SendTC (R340, R341, R529, R566). -/
def execSendTc (addr ch : Byte) (data : List Byte) (retry : Byte) (s : State) : Result :=
  let r := newTcRec addr ch data retry
  if s.running = false then .next (s.giveBool false)
  else if isBroadcast addr then .next (s.giveBool false)
  else if (s.lookupTc addr ch).isSome then .next (s.giveBool false)
  else if data.length > 8 then .next (s.giveBool false)
  else
    let s' := s.afterSend (tcRequestFrame s.address r)
    if s.accepts then .next ((s'.putTc r).giveBool true)
    else .next ((s'.emit (.sendTcFailed addr ch .sendRequestFailed)).giveBool false)

/-- ReceiveTM (R350, R351, R529, R566). -/
def execReceiveTm (addr ch retry : Byte) (s : State) : Result :=
  let r := newTmRec addr ch retry
  if s.running = false then .next (s.giveBool false)
  else if isBroadcast addr then .next (s.giveBool false)
  else if (s.lookupTm addr ch).isSome then .next (s.giveBool false)
  else
    let s' := s.afterSend (tmRequestFrame s.address r)
    if s.accepts then .next ((s'.putTm r).giveBool true)
    else .next ((s'.emit (.receiveTmFailed addr ch .sendRequestFailed)).giveBool false)

/-- TC watchdog fire (R345): delivered only while the watchdog is armed, which it is not afterwards (R50). -/
def execWdFireTc (addr ch : Byte) (s : State) : Result :=
  match s.lookupTc addr ch with
  | some r => if s.running && r.wd.isArmed then .next (s.tcRetry { r with wd := .idle, rx := .idle }) else .next s
  | none => .next s

/-- TM watchdog fire (R355). -/
def execWdFireTm (addr ch : Byte) (s : State) : Result :=
  match s.lookupTm addr ch with
  | some r => if s.running && r.wd.isArmed then .next (s.tmRetry { r with wd := .idle, rx := .idle }) else .next s
  | none => .next s

end Sys2Proof.Machine
end

