-- ==== Sys2Proof/Machine/Dispatcher.lean ====
section
/-! DEFINITION. The bus dispatcher (spec/43_dispatcher.md R291 to R299, R302): the three notifications of a link driver, each
decoded, classified by bus, address and type, and routed to a handler. -/

namespace Sys2Proof.Machine

/-! ### Received frames: R291 to R296 -/

/-- A TC frame for the local node (R292). -/
def State.tcResponse (s : State) (f : LogicalFrame) : Result :=
  match TtFrameType.ofBits (ttFt f.command) with
  | .ack => .next (s.tcOnAck f.fromAddress (ttChannel f.command))
  | .nack => .next (s.tcOnNack f.fromAddress (ttChannel f.command))
  | .request => .next s
  | .reserved3 => .next s

/-- A TM frame for the local node (R292). -/
def State.tmResponse (s : State) (f : LogicalFrame) : Result :=
  match TtFrameType.ofBits (ttFt f.command) with
  | .ack => .next (s.tmOnAck f.fromAddress (ttChannel f.command) f.data)
  | .nack => .next (s.tmOnNack f.fromAddress (ttChannel f.command))
  | .request => .next s
  | .reserved3 => .next s

/-- An SB frame for the local node (R292). -/
def State.sbResponse (s : State) (f : LogicalFrame) : Result :=
  match SbFrameType.ofBits (blkFt f.command) with
  | .ack => s.sbOnAck f.fromAddress (blkSn f.command) f.data
  | .nack => s.sbOnNack f.fromAddress (blkSn f.command) f.data
  | .report => s.sbOnReport f.fromAddress (blkDone f.command) f.data
  | .request => .next s
  | .transfer => .next s
  | .abort => .next s
  | .reserved5 => .next s
  | .status => .next s

/-- A GB frame for the local node (R292). -/
def State.gbResponse (s : State) (f : LogicalFrame) : Result :=
  match GbFrameType.ofBits (blkFt f.command) with
  | .ack => .next (s.gbOnAck f.fromAddress (blkSn f.command) f.data)
  | .nack => .next (s.gbOnNack f.fromAddress (blkSn f.command) f.data)
  | .transfer => s.gbOnTransfer f.fromAddress (blkSn f.command) f.data
  | .request => .next s
  | .reserved1 => .next s
  | .abort => .next s
  | .reserved5 => .next s
  | .start => .next s

/-- `dispatch_by_type` (R292). -/
def State.dispatchByType (s : State) (f : LogicalFrame) : Result :=
  match TransferType.ofBits f.transferType with
  | .telecommand => s.tcResponse f
  | .telemetry => s.tmResponse f
  | .setBlock => s.sbResponse f
  | .getBlock => s.gbResponse f
  | .unsolicited => .next (s.unsolReceived f.fromAddress (ttChannel f.command) f.data)
  | .timeSync => .next s
  | .reserved6 => .next s
  | .reserved7 => .next s

/-- `classify_active` (R292 to R295). -/
def State.classifyActive (s : State) (f : LogicalFrame) : Result :=
  if f.toAddress = s.address then s.dispatchByType f
  else if f.toAddress = Config.keepAliveAddress ∧ f.transferType = TransferType.unsolicited.bits then
    .next (s.keepAliveActive f.fromAddress (ttChannel f.command) f.data)
  else if f.toAddress = Config.timeSyncAddress ∧ f.transferType = TransferType.timeSync.bits then
    .next (s.timeSyncIn f.fromAddress f.data)
  else .next s

/-- `classify_inactive` (R296). -/
def State.classifyInactive (s : State) (f : LogicalFrame) : Result :=
  if f.toAddress = Config.keepAliveAddress ∧ f.transferType = TransferType.unsolicited.bits then
    .next (s.keepAliveInactive f.fromAddress (ttChannel f.command) f.data)
  else .next s

/-- frame_received (R291). -/
def execFrameReceived (bus : Bus) (c : CanFrame) (s : State) : Result :=
  if s.delivers bus then
    match decodeFrame c with
    | none => .next s
    | some f =>
      if 6 ≤ f.transferType.toNat then .next s
      else if bus = s.activeBus then s.classifyActive f
      else s.classifyInactive f
  else .next s

/-! ### Confirmations: R297 to R299 -/

/-- A confirmed frame that was sent, by its type and frame type (R298, R299). -/
def State.routeSent (s : State) (f : LogicalFrame) : Result :=
  match TransferType.ofBits f.transferType with
  | .timeSync => .next (s.timeSyncSent f.data)
  | .unsolicited => .next (s.unsolSent f.toAddress (ttChannel f.command))
  | .telecommand =>
    match TtFrameType.ofBits (ttFt f.command) with
    | .request => .next (s.tcRequestSent f.toAddress (ttChannel f.command))
    | .ack => .next s
    | .nack => .next s
    | .reserved3 => .next s
  | .telemetry =>
    match TtFrameType.ofBits (ttFt f.command) with
    | .request => .next (s.tmRequestSent f.toAddress (ttChannel f.command))
    | .ack => .next s
    | .nack => .next s
    | .reserved3 => .next s
  | .setBlock =>
    match SbFrameType.ofBits (blkFt f.command) with
    | .request => .next (s.sbRequestSent f.toAddress)
    | .transfer => s.sbTransferSent f.toAddress (blkSn f.command)
    | .status => .next (s.sbStatusSent f.toAddress)
    | .abort => .next (s.sbAbortSent f.toAddress)
    | .ack => .next s
    | .nack => .next s
    | .reserved5 => .next s
    | .report => .next s
  | .getBlock =>
    match GbFrameType.ofBits (blkFt f.command) with
    | .request => .next (s.gbRequestSent f.toAddress)
    | .start => .next (s.gbStartSent f.toAddress)
    | .abort => .next (s.gbAbortSent f.toAddress)
    | .ack => .next s
    | .nack => .next s
    | .reserved1 => .next s
    | .reserved5 => .next s
    | .transfer => .next s
  | .reserved6 => .next s
  | .reserved7 => .next s

/-- A confirmed frame that was not sent; the reason does not change the handling (R298, R299). -/
def State.routeError (s : State) (f : LogicalFrame) : State :=
  match TransferType.ofBits f.transferType with
  | .timeSync => s.timeSyncError f.data
  | .unsolicited => s.unsolError f.toAddress (ttChannel f.command)
  | .telecommand =>
    match TtFrameType.ofBits (ttFt f.command) with
    | .request => s.tcRequestError f.toAddress (ttChannel f.command)
    | .ack => s
    | .nack => s
    | .reserved3 => s
  | .telemetry =>
    match TtFrameType.ofBits (ttFt f.command) with
    | .request => s.tmRequestError f.toAddress (ttChannel f.command)
    | .ack => s
    | .nack => s
    | .reserved3 => s
  | .setBlock =>
    match SbFrameType.ofBits (blkFt f.command) with
    | .request => s.sbFrameError f.toAddress .sendingRequest .sendRequestFailed
    | .transfer => s.sbFrameError f.toAddress .sendingData .sendDataFailed
    | .status => s.sbFrameError f.toAddress .sendingStatusRequest .sendStatusRequestFailed
    | .abort => s.sbFrameError f.toAddress .sendingAbort .sendAbortFailed
    | .ack => s
    | .nack => s
    | .reserved5 => s
    | .report => s
  | .getBlock =>
    match GbFrameType.ofBits (blkFt f.command) with
    | .request => s.gbFrameError f.toAddress .sendingRequest .sendRequestFailed
    | .start => s.gbFrameError f.toAddress .sendingStart .sendStartFailed
    | .abort => s.gbFrameError f.toAddress .sendingAbort .sendAbortFailed
    | .ack => s
    | .nack => s
    | .reserved1 => s
    | .reserved5 => s
    | .transfer => s
  | .reserved6 => s
  | .reserved7 => s

/-- frame_sent (R297, R298). -/
def execFrameSent (bus : Bus) (c : CanFrame) (s : State) : Result :=
  confirm bus c s fun s => s.routeSent (frameFields c)

/-- send_error (R297, R298). -/
def execSendError (bus : Bus) (c : CanFrame) (_reason : SendErrorReason) (s : State) : Result :=
  confirm bus c s fun s => .next (s.routeError (frameFields c))

end Sys2Proof.Machine
end

