-- ==== Sys2Proof/Machine/Lifecycle.lean ====
section
/-! DEFINITION. Start, Stop, CanBusSwitch and the accessors (spec/48_lifecycle.md R520 to R529, spec/43_dispatcher.md R300). -/

namespace Sys2Proof.Machine

/-- Start's steps 2 to 4 with serial settings (R520, R523): store, open Nominal, open Redundant, run. -/
def State.startWith (s : State) (addr : Byte) (timeoutMs : Word32) (nom red : PortSettings) : State :=
  let s1 := { s with address := addr, timeoutMs := timeoutMs }
  if s.nominal.nextAnswer .nominal then
    if s.redundant.nextAnswer .redundant then
      { s1 with nominal := s.nominal.openWith nom, redundant := s.redundant.openWith red,
                activeBus := .nominal, running := true }.giveBool true
    else
      { s1 with nominal := (s.nominal.openWith nom).closed, redundant := s.redundant.answered }.giveBool false
  else { s1 with nominal := s.nominal.answered }.giveBool false

/-- Start (R520 to R523). -/
def execStart (addr : Byte) (timeoutMs : Word32) (settings : Settings) (s : State) : Result :=
  if isBroadcast addr then .next (s.giveBool false)
  else
    match settings with
    | .nonSerial => .next (s.giveBool false)
    | .serial nom red =>
      if s.running then .next (s.giveBool false) else .next (s.startWith addr timeoutMs nom red)

/-- Stop (R524, R525): no result. -/
def execStop (s : State) : Result :=
  if s.running then
    .next { s.clearRegistries with nominal := s.nominal.closed, redundant := s.redundant.closed, running := false }
  else .next s

/-- CanBusSwitch (R300, R529): no result. -/
def execCanBusSwitch (s : State) : Result :=
  if s.running then .next { s.clearRegistries with activeBus := otherBus s.activeBus } else .next s

/-- GetActiveBus (R526). -/
def execGetActiveBus (s : State) : Result := .next (s.give (.bus s.activeBus))

/-- GetAddress (R527). -/
def execGetAddress (s : State) : Result := .next (s.give (.address s.address))

end Sys2Proof.Machine
end

