-- ==== Sys2Proof/Machine/Dispatch.lean ====
section
/-! DEFINITION. The meaning of each instruction, one arm per constructor of `Instr`. -/

namespace Sys2Proof.Machine

def exec (i : Instr) (s : State) : Host.Outcome State Fault Refusal :=
  match i with
  | .tcRequest p t f c d => Sys2Proof.Machine.execTcRequest p t f c d s
  | .tcAck p t f c d => Sys2Proof.Machine.execTcAck p t f c d s
  | .tcNack p t f c d => Sys2Proof.Machine.execTcNack p t f c d s
  | .tcReservedFt3 p t f c d => Sys2Proof.Machine.execTcReservedFt3 p t f c d s
  | .tmRequest p t f c d => Sys2Proof.Machine.execTmRequest p t f c d s
  | .tmAck p t f c d => Sys2Proof.Machine.execTmAck p t f c d s
  | .tmNack p t f c d => Sys2Proof.Machine.execTmNack p t f c d s
  | .tmReservedFt3 p t f c d => Sys2Proof.Machine.execTmReservedFt3 p t f c d s
  | .sbRequest p t f n d => Sys2Proof.Machine.execSbRequest p t f n d s
  | .sbTransfer p t f n d => Sys2Proof.Machine.execSbTransfer p t f n d s
  | .sbAck p t f n d => Sys2Proof.Machine.execSbAck p t f n d s
  | .sbAbort p t f n d => Sys2Proof.Machine.execSbAbort p t f n d s
  | .sbNack p t f n d => Sys2Proof.Machine.execSbNack p t f n d s
  | .sbReservedFt5 p t f n d => Sys2Proof.Machine.execSbReservedFt5 p t f n d s
  | .sbStatus p t f n d => Sys2Proof.Machine.execSbStatus p t f n d s
  | .sbReport p t f b n d => Sys2Proof.Machine.execSbReport p t f b n d s
  | .gbRequest p t f n d => Sys2Proof.Machine.execGbRequest p t f n d s
  | .gbReservedFt1 p t f n d => Sys2Proof.Machine.execGbReservedFt1 p t f n d s
  | .gbAck p t f n d => Sys2Proof.Machine.execGbAck p t f n d s
  | .gbAbort p t f n d => Sys2Proof.Machine.execGbAbort p t f n d s
  | .gbNack p t f n d => Sys2Proof.Machine.execGbNack p t f n d s
  | .gbReservedFt5 p t f n d => Sys2Proof.Machine.execGbReservedFt5 p t f n d s
  | .gbStart p t f n d => Sys2Proof.Machine.execGbStart p t f n d s
  | .gbTransfer p t f n d => Sys2Proof.Machine.execGbTransfer p t f n d s
  | .unsol p t f c d => Sys2Proof.Machine.execUnsol p t f c d s
  | .keepalive p f c d => Sys2Proof.Machine.execKeepalive p f c d s
  | .timesync p f d => Sys2Proof.Machine.execTimesync p f d s
  | .type6Reserved p t f d => Sys2Proof.Machine.execType6Reserved p t f d s
  | .type7Reserved p t f d => Sys2Proof.Machine.execType7Reserved p t f d s
  | .start a ms cfg => Sys2Proof.Machine.execStart a ms cfg s
  | .stop => Sys2Proof.Machine.execStop s
  | .sendTc a c d r => Sys2Proof.Machine.execSendTc a c d r s
  | .receiveTm a c r => Sys2Proof.Machine.execReceiveTm a c r s
  | .sendBlock a v d r ms q => Sys2Proof.Machine.execSendBlock a v d r ms q s
  | .receiveBlock a v n r q => Sys2Proof.Machine.execReceiveBlock a v n r q s
  | .sendTimeSync v => Sys2Proof.Machine.execSendTimeSync v s
  | .sendUnsolicited a c d => Sys2Proof.Machine.execSendUnsolicited a c d s
  | .canBusSwitch => Sys2Proof.Machine.execCanBusSwitch s
  | .getActiveBus => Sys2Proof.Machine.execGetActiveBus s
  | .getAddress => Sys2Proof.Machine.execGetAddress s
  | .frameReceived b c => Sys2Proof.Machine.execFrameReceived b c s
  | .frameSent b c => Sys2Proof.Machine.execFrameSent b c s
  | .sendError b c e => Sys2Proof.Machine.execSendError b c e s
  | .wdFireTc a c => Sys2Proof.Machine.execWdFireTc a c s
  | .wdFireTm a c => Sys2Proof.Machine.execWdFireTm a c s
  | .wdFireSb a => Sys2Proof.Machine.execWdFireSb a s
  | .wdFireGb a => Sys2Proof.Machine.execWdFireGb a s
  | .rdFireSb a => Sys2Proof.Machine.execRdFireSb a s

end Sys2Proof.Machine
end

