-- ==== Sys2Proof/Machine/Fetch.lean ====
section
/-! DEFINITION. Where a step finds its instruction: the head of the posted and undelivered input events (R55, R85), and how
a table word is put there (log entry 5). -/

namespace Sys2Proof.Machine

/-- The next input event and the state without it; `none` when nothing is posted (R85, R599). -/
def State.fetch (s : State) : Option (Instr × State) :=
  match s.pending with
  | [] => none
  | i :: rest => some (i, { s with pending := rest })

/-- The event `i` posted before all others. -/
def State.post (s : State) (i : Instr) : State := { s with pending := i :: s.pending }

/-- What the delivery of a frame from the Nominal driver takes (R34, R36): the engine runs and that driver is open. -/
def State.ready (s : State) : State :=
  { s with running := true,
           nominal := if s.nominal.isOpen then s.nominal
                      else { s.nominal with state := .opened { portName := "", baud := 0 } } }

/-- The frame of a table word, received on the Nominal bus as the next event. -/
def State.withFrameWord (s : State) (nbits w : Nat) : State :=
  s.ready.post (.frameReceived tablePort.bus (tableFrame nbits w))

end Sys2Proof.Machine
end

