-- ==== Sys2Proof/Machine/Step.lean ====
section
/-! DEFINITION. One step: the next posted input event is delivered and handled to completion (R9, R85). -/

namespace Sys2Proof.Machine

/-- One step. With nothing posted the engine does nothing (R599). -/
def step (s : State) : Host.Outcome State Fault Refusal :=
  match s.fetch with
  | none => .next s
  | some (i, s') => if i.wellFormed then exec i s' else .refused .illFormed

/-- The frame of a table word as the very next input event, from a driver that can deliver it (log entry 5). -/
def State.withFetchWord (s : State) (nbits w : Nat) : State := s.withFrameWord nbits w

end Sys2Proof.Machine
end

