-- ==== Sys2Proof/Safety.lean ====
section
/-! DEFINITION. What the statements speak of: the invariant of the engine's state (R37, R40 to R54, R110, R306), the retry
budget of TC and TM (R360), what the environment may deliver (R310, R50), which output events end which transfer
(R571, R577), and which transfer an instruction is correlated to (R298, R299). -/

namespace Sys2Proof.Machine

/-! ### Records -/

/-- A unicast node address (R89). -/
abbrev Unicast (a : Byte) : Prop := a ≠ 0x00 ∧ a ≠ 0x01

/-- A TC record as its rules leave it: legal fields (R40) in one of the two states of R349 (R42, R52). -/
abbrev TcRec.WF (r : TcRec) : Prop :=
  Unicast r.address ∧ r.data.length ≤ 8 ∧
  ((r.tx = .sendingRequest ∧ r.rx = .idle ∧ r.wd = .idle) ∨
   (r.tx = .idle ∧ r.rx = .waitingForRequestAck ∧ r.wd.isArmed = true))

/-- A TM record (R41, R42, R52, R359). -/
abbrev TmRec.WF (r : TmRec) : Prop :=
  Unicast r.address ∧
  ((r.tx = .sendingRequest ∧ r.rx = .idle ∧ r.wd = .idle) ∨
   (r.tx = .idle ∧ r.rx = .waitingForRequestAck ∧ r.wd.isArmed = true))

/-- An SB record: legal fields (R43), a bitmap valid for its blocks (R43, R44), one of tx and rx idle (R425), its timers
armed as R52 says, and never in SendingStart (C8). -/
abbrev SbRec.WF (r : SbRec) : Prop :=
  Unicast r.address ∧ (1 ≤ r.start.length ∧ r.start.length ≤ 8) ∧ (1 ≤ r.data.length ∧ r.data.length ≤ 512) ∧
  r.blocks.toNat = sbBlocks r.data.length ∧ isValid r.bitmap r.blocks.toNat = true ∧
  (r.tx = .idle ↔ r.rx ≠ .idle) ∧ r.tx ≠ .sendingStart ∧
  (r.wd.isArmed = true ↔ r.rx ≠ .idle) ∧ (r.rd.isArmed = true ↔ r.tx = .waitingForSendStatusRequest)

/-- A GB record: legal fields (R47), a bitmap valid for its blocks, one of tx and rx idle (R476), its watchdog armed as R52
says for the parameter `GB_DATA_WATCHDOG`, and every frame received in the abort phase (R48, R466). -/
abbrev GbRec.WF (p : Params) (r : GbRec) : Prop :=
  Unicast r.address ∧ (1 ≤ r.start.length ∧ r.start.length ≤ 8) ∧ (1 ≤ r.blocks.toNat ∧ r.blocks.toNat ≤ 64) ∧
  isValid r.bitmap r.blocks.toNat = true ∧ r.data.length = 8 * r.blocks.toNat ∧
  (r.tx = .idle ↔ r.rx ≠ .idle) ∧ (r.wd.isArmed = true → r.rx ≠ .idle) ∧
  (r.rx ≠ .idle → r.wd.isArmed = true ∨ (p.gbDataWatchdog = .stop ∧ r.rx = .waitingForData)) ∧
  (r.tx = .sendingAbort ∨ r.rx = .waitingForAbortAck → ∀ k < r.blocks.toNat, bitAt r.bitmap k = false)

/-! ### Links and registries -/

/-- A frame as the engine builds it (R110). -/
abbrev BuiltFrame (c : CanFrame) : Prop :=
  c.extid = true ∧ c.rtr = false ∧ c.id.toNat < 2 ^ 29 ∧ c.data.length ≤ 8

/-- A driver holds only frames the engine builds, and none while it is closed (R53, R310). -/
abbrev Link.WF (l : Link) : Prop := (∀ c ∈ l.inFlight, BuiltFrame c) ∧ (l.isOpen = false → l.inFlight = [])

/-- The canonical form of a registry: strictly rising keys, so one record for each key (R37, R306). -/
abbrev Canonical {ρ : Type} (key : ρ → Nat) (rs : List ρ) : Prop := rs.Pairwise fun x y => key x < key y

/-! ### The invariant -/

/-- One record for each key in each registry (R37, R306). -/
abbrev State.RegistriesCanonical (s : State) : Prop :=
  Canonical TcRec.key s.tc ∧ Canonical TmRec.key s.tm ∧ Canonical SbRec.key s.sb ∧ Canonical GbRec.key s.gb

/-- Every record is well formed. -/
abbrev State.RecordsWF (s : State) : Prop :=
  (∀ r ∈ s.tc, r.WF) ∧ (∀ r ∈ s.tm, r.WF) ∧ (∀ r ∈ s.sb, r.WF) ∧ (∀ r ∈ s.gb, r.WF s.params)

/-- The drivers are well formed and open exactly while the engine runs (R36). -/
abbrev State.LinksWF (s : State) : Prop :=
  s.nominal.WF ∧ s.redundant.WF ∧ s.nominal.isOpen = s.running ∧ s.redundant.isOpen = s.running

/-- A unicast address while the engine runs (R31), no record while it is stopped (R65, R612). -/
abbrev State.ModeWF (s : State) : Prop :=
  (s.running = true → Unicast s.address) ∧
  (s.running = false → s.tc = [] ∧ s.tm = [] ∧ s.sb = [] ∧ s.gb = [])

/-- The invariant of every reachable state. -/
abbrev State.Inv (s : State) : Prop := s.RegistriesCanonical ∧ s.RecordsWF ∧ s.LinksWF ∧ s.ModeWF

/-- The retry budget of TC and TM records (R360): at most `max_retries` confirmed REQUESTs while one is in flight, at most
`max_retries + 1` otherwise; no bound for `max_retries = 255`, whose count wraps (R637). -/
abbrev State.Budget (s : State) : Prop :=
  (∀ r ∈ s.tc, r.maxRetries = 255 ∨
    r.retryCount.toNat ≤ r.maxRetries.toNat + (if r.tx = .sendingRequest then 0 else 1)) ∧
  (∀ r ∈ s.tm, r.maxRetries = 255 ∨
    r.retryCount.toNat ≤ r.maxRetries.toNat + (if r.tx = .sendingRequest then 0 else 1))

/-! ### The environment -/

/-- A confirmation the driver of bus `b` may deliver: it is open and holds the frame (R310 (b), (e)). -/
abbrev State.mayConfirm (s : State) (b : Bus) (c : CanFrame) : Prop :=
  s.delivers b = true ∧ c ∈ (s.link b).inFlight

/-- What the environment may deliver as the next event (R50, R310): notifications of open drivers, confirmations of frames in
flight, fires of armed timers, and any host command. -/
def State.mayDeliver (s : State) (i : Instr) : Prop :=
  match i with
  | .frameReceived b c => s.delivers b = true ∧ c.wellFormed = true
  | .frameSent b c => s.mayConfirm b c
  | .sendError b c _ => s.mayConfirm b c
  | .wdFireTc a ch => s.running = true ∧ ∃ r, s.lookupTc a ch = some r ∧ r.wd.isArmed = true
  | .wdFireTm a ch => s.running = true ∧ ∃ r, s.lookupTm a ch = some r ∧ r.wd.isArmed = true
  | .wdFireSb a => s.running = true ∧ ∃ r, s.lookupSb a = some r ∧ r.wd.isArmed = true
  | .wdFireGb a => s.running = true ∧ ∃ r, s.lookupGb a = some r ∧ r.wd.isArmed = true
  | .rdFireSb a => s.running = true ∧ ∃ r, s.lookupSb a = some r ∧ r.rd.isArmed = true
  | i =>
    match i.port?, encode i with
    | some p, some c =>
      match p.notice with
      | .received => s.delivers p.bus = true ∧ c.wellFormed = true
      | .sent => s.mayConfirm p.bus c
      | .sendError _ => s.mayConfirm p.bus c
    | _, _ => True

/-! ### Terminal events -/

/-- The transfer an event ends (R571); the other events end none. -/
def OutEvent.ends : OutEvent → Option Key
  | .sendTcCompleted a ch => some (.tc a ch)
  | .sendTcFailed a ch _ => some (.tc a ch)
  | .receiveTmCompleted a ch _ => some (.tm a ch)
  | .receiveTmFailed a ch _ => some (.tm a ch)
  | .sendBlockCompleted a => some (.sb a)
  | .sendBlockFailed a _ => some (.sb a)
  | .receiveBlockCompleted a _ => some (.gb a)
  | .receiveBlockFailed a _ => some (.gb a)
  | .sendTimeSyncCompleted _ => none
  | .sendTimeSyncFailed _ => none
  | .sendUnsolicitedCompleted _ _ => none
  | .sendUnsolicitedFailed _ _ => none
  | .unsolicitedReceived _ _ _ => none
  | .timeSyncReceived _ _ => none
  | .keepAliveReceivedNominal _ _ _ => none
  | .keepAliveReceivedRedundant _ _ _ => none

/-- The transfer a host-port output ends. -/
def HostOut.ends : HostOut → Option Key
  | .event e => e.ends
  | .result _ => none

/-- The record under a key is live (R305, `contains`). -/
def State.live (s : State) : Key → Bool
  | .tc a ch => (s.lookupTc a ch).isSome
  | .tm a ch => (s.lookupTm a ch).isSome
  | .sb a => (s.lookupSb a).isSome
  | .gb a => (s.lookupGb a).isSome

/-- How many of some outputs end the transfer `k`. -/
def endings (k : Key) (out : List HostOut) : Nat := out.countP fun o => o.ends == some k

/-- The two commands that abandon every transfer (R307). -/
def abandons : Instr → Bool
  | .stop => true
  | .canBusSwitch => true
  | _ => false

/-! ### What one step changes -/

/-- The driver of bus `b` delivers, and it is the active one: the engine handles the notification (R291, R297). -/
abbrev State.hears (s : State) (b : Bus) : Prop := s.delivers b = true ∧ b = s.activeBus

/-- `t` is `u` but for the TC record under `(a, ch)`, which is now `r`, and for `ev`, which the host port has gained. -/
def ChangesTc (u t : State) (a ch : Byte) (r : Option TcRec) (ev : List HostOut) : Prop :=
  t.lookupTc a ch = r ∧ (∀ a' ch', ¬(a' = a ∧ ch' = ch) → t.lookupTc a' ch' = u.lookupTc a' ch') ∧
  t = { u with tc := t.tc, out := u.out ++ ev }

/-- `t` is `u` but for the TM record under `(a, ch)`, which is now `r`, and for `ev`, which the host port has gained. -/
def ChangesTm (u t : State) (a ch : Byte) (r : Option TmRec) (ev : List HostOut) : Prop :=
  t.lookupTm a ch = r ∧ (∀ a' ch', ¬(a' = a ∧ ch' = ch) → t.lookupTm a' ch' = u.lookupTm a' ch') ∧
  t = { u with tm := t.tm, out := u.out ++ ev }

/-- `t` is `u` but for the SB record under `a`, which is now `r`, and for `ev`, which the host port has gained. -/
def ChangesSb (u t : State) (a : Byte) (r : Option SbRec) (ev : List HostOut) : Prop :=
  t.lookupSb a = r ∧ (∀ a', a' ≠ a → t.lookupSb a' = u.lookupSb a') ∧
  t = { u with sb := t.sb, out := u.out ++ ev }

/-- `t` is `u` but for the GB record under `a`, which is now `r`, and for `ev`, which the host port has gained. -/
def ChangesGb (u t : State) (a : Byte) (r : Option GbRec) (ev : List HostOut) : Prop :=
  t.lookupGb a = r ∧ (∀ a', a' ≠ a → t.lookupGb a' = u.lookupGb a') ∧
  t = { u with gb := t.gb, out := u.out ++ ev }

/-- A TC REQUEST is handed off for `r`, or its refusal ends the transfer (R341, R346). -/
def HandsOffTc (s t : State) (r : TcRec) : Prop :=
  if s.accepts then
    ChangesTc (s.afterSend (tcRequestFrame s.address r)) t r.address r.channel (some { r with tx := .sendingRequest }) []
  else
    ChangesTc (s.afterSend (tcRequestFrame s.address r)) t r.address r.channel none
      [.event (.sendTcFailed r.address r.channel .sendRequestFailed)]

/-- The three outcomes of the TC retry policy (R346). -/
def RetriesTc (s t : State) (r : TcRec) : Prop :=
  if r.maxRetries.toNat < r.retryCount.toNat then
    ChangesTc s t r.address r.channel none [.event (.sendTcFailed r.address r.channel .maxRetriesReached)]
  else HandsOffTc s t r

/-- A TM REQUEST is handed off for `r`, or its refusal ends the transfer (R351, R356). -/
def HandsOffTm (s t : State) (r : TmRec) : Prop :=
  if s.accepts then
    ChangesTm (s.afterSend (tmRequestFrame s.address r)) t r.address r.channel (some { r with tx := .sendingRequest }) []
  else
    ChangesTm (s.afterSend (tmRequestFrame s.address r)) t r.address r.channel none
      [.event (.receiveTmFailed r.address r.channel .sendRequestFailed)]

/-- The three outcomes of the TM retry policy (R356). -/
def RetriesTm (s t : State) (r : TmRec) : Prop :=
  if r.maxRetries.toNat < r.retryCount.toNat then
    ChangesTm s t r.address r.channel none [.event (.receiveTmFailed r.address r.channel .maxRetriesReached)]
  else HandsOffTm s t r

/-- The SB transfer of `r` ends with the error `kind` (R575). -/
abbrev FailsSb (s t : State) (r : SbRec) (kind : SbKind) : Prop :=
  ChangesSb s t r.address none [.event (.sendBlockFailed r.address kind)]

/-- The frame `f` is handed off for `r`, which enters `tx`, or its refusal ends the transfer with `kind` (R408). -/
def HandsOffSb (s t : State) (r : SbRec) (f : LogicalFrame) (tx : SbTx) (kind : SbKind) : Prop :=
  if s.accepts then ChangesSb (s.afterSend f) t r.address (some { r with tx := tx }) []
  else FailsSb (s.afterSend f) t r kind

/-- The TRANSFER frame `k` of a block: its bytes `8k` to `8k + 8`, as far as the block goes (R222). -/
def transferFrame (L : Byte) (r : SbRec) (k : Nat) : LogicalFrame :=
  sbFrame .transfer r.address L false (BitVec.ofNat 6 k) ((r.data.drop (8 * k)).take 8)

/-- `SendBlockRetryRequest` (R404). -/
def RetriesSbRequest (s t : State) (r : SbRec) : Prop :=
  if r.maxRetries.toNat < r.retryCount.toNat then FailsSb s t r .maxSendRequestRetriesReached
  else HandsOffSb s t r (sbRequestFrame s.address r) .sendingRequest .sendRequestFailed

/-- `SendBlockRetryStatus` (R405). -/
def RetriesSbStatus (s t : State) (r : SbRec) : Prop :=
  if r.maxRetries.toNat < r.retryCount.toNat then FailsSb s t r .maxSendStatusRetriesReached
  else HandsOffSb s t r (sbStatusFrame s.address r) .sendingStatusRequest .sendStatusRequestFailed

/-- Every bit of the first `n` is set (R265). -/
abbrev FullBitmap (b : List Byte) (n : Nat) : Prop := ∀ k < n, bitAt b k = true

/-- The index `k` is the lowest clear bit of the first `n` (R269). -/
abbrev LowestClear (b : List Byte) (n k : Nat) : Prop := k < n ∧ bitAt b k = false ∧ ∀ j < k, bitAt b j = true

/-- The success path of an SB transfer (R45). -/
abbrev SbRec.succeeded (r : SbRec) : Prop := r.done = true ∧ FullBitmap r.bitmap r.blocks.toNat

/-- `SendBlockRetryAbort` (R406). -/
def RetriesSbAbort (s t : State) (r : SbRec) : Prop :=
  if r.maxRetries.toNat < r.retryCount.toNat then
    FailsSb s t r (if r.succeeded then .maxSendAbortRetriesReached else .maxReportRetriesReached)
  else HandsOffSb s t r (sbAbortFrame s.address r) .sendingAbort .sendAbortFailed

/-- The GB transfer of `r` ends with the error `kind` (R575). -/
abbrev FailsGb (s t : State) (r : GbRec) (kind : GbKind) : Prop :=
  ChangesGb s t r.address none [.event (.receiveBlockFailed r.address kind)]

/-- The frame `f` is handed off for `r`, which enters `tx`, or its refusal ends the transfer with `kind` (R474). -/
def HandsOffGb (s t : State) (r : GbRec) (f : LogicalFrame) (tx : GbTx) (kind : GbKind) : Prop :=
  if s.accepts then ChangesGb (s.afterSend f) t r.address (some { r with tx := tx }) []
  else FailsGb (s.afterSend f) t r kind

/-- `ReceiveBlockRetryRequest` (R470). -/
def RetriesGbRequest (s t : State) (r : GbRec) : Prop :=
  if r.maxRetries.toNat < r.retryCount.toNat then FailsGb s t r .maxSendRequestRetriesReached
  else HandsOffGb s t r (gbRequestFrame s.address r) .sendingRequest .sendRequestFailed

/-- `ReceiveBlockRetryStart` (R472). -/
def RetriesGbStart (s t : State) (r : GbRec) : Prop :=
  if r.maxStartRetries.toNat < r.startRetryCount.toNat then FailsGb s t r .maxSendStartRetriesReached
  else HandsOffGb s t r (gbStartFrame s.address r) .sendingStart .sendStartFailed

/-- `ReceiveBlockRetryAbort` (R473). -/
def RetriesGbAbort (s t : State) (r : GbRec) : Prop :=
  if r.maxRetries.toNat < r.retryCount.toNat then FailsGb s t r .maxSendAbortRetriesReached
  else HandsOffGb s t r (gbAbortFrame s.address r) .sendingAbort .sendAbortFailed

/-- The record under a key is the same in both states. -/
def SameRecord (s t : State) : Key → Prop
  | .tc a ch => t.lookupTc a ch = s.lookupTc a ch
  | .tm a ch => t.lookupTm a ch = s.lookupTm a ch
  | .sb a => t.lookupSb a = s.lookupSb a
  | .gb a => t.lookupGb a = s.lookupGb a

/-! ### Correlation: R298, R299 -/

/-- The remote node of a frame met at a port: the sender of a received frame, the target of a confirmed one (R298, R299). -/
def remoteNode (p : Port) (toAddr fromAddr : Byte) : Byte :=
  match p.notice with
  | .received => fromAddr
  | .sent => toAddr
  | .sendError _ => toAddr

/-- The key a frame is correlated to at a port (R298, R299); an auxiliary frame and one of a reserved type have none. -/
def frameKey (p : Port) (f : LogicalFrame) : Option Key :=
  let a := remoteNode p f.toAddress f.fromAddress
  match TransferType.ofBits f.transferType with
  | .telecommand => some (.tc a (ttChannel f.command))
  | .telemetry => some (.tm a (ttChannel f.command))
  | .setBlock => some (.sb a)
  | .getBlock => some (.gb a)
  | .timeSync | .unsolicited | .reserved6 | .reserved7 => none

/-- The key of the one transfer an instruction can touch: that of the frame it delivers (R298, R299), of the transfer a
command starts (R306), of the record whose timer fires (R50). The other instructions touch no single transfer. -/
def touches : Instr → Option Key
  | .tcRequest p t f ch _ | .tcAck p t f ch _ | .tcNack p t f ch _ | .tcReservedFt3 p t f ch _ => some (.tc (remoteNode p t f) ch)
  | .tmRequest p t f ch _ | .tmAck p t f ch _ | .tmNack p t f ch _ | .tmReservedFt3 p t f ch _ => some (.tm (remoteNode p t f) ch)
  | .sbRequest p t f _ _ | .sbTransfer p t f _ _ | .sbAck p t f _ _ | .sbAbort p t f _ _
  | .sbNack p t f _ _ | .sbReservedFt5 p t f _ _ | .sbStatus p t f _ _ | .sbReport p t f _ _ _ => some (.sb (remoteNode p t f))
  | .gbRequest p t f _ _ | .gbReservedFt1 p t f _ _ | .gbAck p t f _ _ | .gbAbort p t f _ _
  | .gbNack p t f _ _ | .gbReservedFt5 p t f _ _ | .gbStart p t f _ _ | .gbTransfer p t f _ _ => some (.gb (remoteNode p t f))
  | .unsol _ _ _ _ _ | .keepalive _ _ _ _ | .timesync _ _ _ | .type6Reserved _ _ _ _ | .type7Reserved _ _ _ _ => none
  | .sendTc a ch _ _ => some (.tc a ch)
  | .receiveTm a ch _ => some (.tm a ch)
  | .sendBlock a _ _ _ _ _ => some (.sb a)
  | .receiveBlock a _ _ _ _ => some (.gb a)
  | .start _ _ _ | .stop | .sendTimeSync _ | .sendUnsolicited _ _ _ | .canBusSwitch | .getActiveBus | .getAddress => none
  | .frameReceived b c => frameKey ⟨b, .received⟩ (frameFields c)
  | .frameSent b c => frameKey ⟨b, .sent⟩ (frameFields c)
  | .sendError b c e => frameKey ⟨b, .sendError e⟩ (frameFields c)
  | .wdFireTc a ch => some (.tc a ch)
  | .wdFireTm a ch => some (.tm a ch)
  | .wdFireSb a | .rdFireSb a => some (.sb a)
  | .wdFireGb a => some (.gb a)

/-! ### The frame-kind table: R121, R130 to R132 -/

/-- The identifier mask and match of a frame kind's row; `none` for what has no bit encoding (R143). -/
def pattern : Instr → Option (Word32 × Word32)
  | .tcRequest _ _ _ _ _ => some (0x001C0300, 0x00080000)
  | .tcAck _ _ _ _ _ => some (0x001C0300, 0x00080100)
  | .tcNack _ _ _ _ _ => some (0x001C0300, 0x00080200)
  | .tcReservedFt3 _ _ _ _ _ => some (0x001C0300, 0x00080300)
  | .tmRequest _ _ _ _ _ => some (0x001C0300, 0x000C0000)
  | .tmAck _ _ _ _ _ => some (0x001C0300, 0x000C0100)
  | .tmNack _ _ _ _ _ => some (0x001C0300, 0x000C0200)
  | .tmReservedFt3 _ _ _ _ _ => some (0x001C0300, 0x000C0300)
  | .sbRequest _ _ _ _ _ => some (0x001C0380, 0x00100000)
  | .sbTransfer _ _ _ _ _ => some (0x001C0380, 0x00100080)
  | .sbAck _ _ _ _ _ => some (0x001C0380, 0x00100100)
  | .sbAbort _ _ _ _ _ => some (0x001C0380, 0x00100180)
  | .sbNack _ _ _ _ _ => some (0x001C0380, 0x00100200)
  | .sbReservedFt5 _ _ _ _ _ => some (0x001C0380, 0x00100280)
  | .sbStatus _ _ _ _ _ => some (0x001C0380, 0x00100300)
  | .sbReport _ _ _ _ _ _ => some (0x001C0380, 0x00100380)
  | .gbRequest _ _ _ _ _ => some (0x001C0380, 0x00140000)
  | .gbReservedFt1 _ _ _ _ _ => some (0x001C0380, 0x00140080)
  | .gbAck _ _ _ _ _ => some (0x001C0380, 0x00140100)
  | .gbAbort _ _ _ _ _ => some (0x001C0380, 0x00140180)
  | .gbNack _ _ _ _ _ => some (0x001C0380, 0x00140200)
  | .gbReservedFt5 _ _ _ _ _ => some (0x001C0380, 0x00140280)
  | .gbStart _ _ _ _ _ => some (0x001C0380, 0x00140300)
  | .gbTransfer _ _ _ _ _ => some (0x001C0380, 0x00140380)
  | .unsol _ _ _ _ _ => some (0x001C0000, 0x00040000)
  | .keepalive _ _ _ _ => some (0x1FFC0000, 0x00240000)
  | .timesync _ _ _ => some (0x1FFC0000, 0x00000000)
  | .type6Reserved _ _ _ _ => some (0x001C0000, 0x00180000)
  | .type7Reserved _ _ _ _ => some (0x001C0000, 0x001C0000)
  | .start _ _ _ => none
  | .stop => none
  | .sendTc _ _ _ _ => none
  | .receiveTm _ _ _ => none
  | .sendBlock _ _ _ _ _ _ => none
  | .receiveBlock _ _ _ _ _ => none
  | .sendTimeSync _ => none
  | .sendUnsolicited _ _ _ => none
  | .canBusSwitch => none
  | .getActiveBus => none
  | .getAddress => none
  | .frameReceived _ _ => none
  | .frameSent _ _ => none
  | .sendError _ _ _ => none
  | .wdFireTc _ _ => none
  | .wdFireTm _ _ => none
  | .wdFireSb _ => none
  | .wdFireGb _ => none
  | .rdFireSb _ => none

end Sys2Proof.Machine
end

