-- ==== Sys2Proof/Certificates/Slice0/Obligations.lean ====
section
/-! DEFINITION. The statements for the provers. Each docstring names the rules of spec/ it rests on. Three words stand for
what the statements say again and again (Sys2Proof/Safety.lean): `s.hears b`, the driver of bus `b` delivers and is the
active one; `Changes… u t key r ev`, the state `t` is `u` but for one record and for the outputs `ev`; `HandsOff…` and
`Retries…`, the outcomes of a send and of a retry policy. -/

open Sys2Proof Sys2Proof.Machine

/-! ### Codec and command field -/

/-- R165, R242: decoding what was encoded gives it back, for identifiers, frames and command fields, and encoding what was
decoded gives it back. -/
def Obligations.CodecRoundTrips : Prop :=
  (∀ (toAddr : Byte) (t : BitVec 3) (fromAddr : Byte) (cmd : Command),
    decodeId (encodeId toAddr t fromAddr cmd) = (toAddr, t, fromAddr, cmd)) ∧
  (∀ f : LogicalFrame, f.data.length ≤ 8 → decodeFrame (encodeFrame f) = some f) ∧
  (∀ id : Word32, id.toNat < 2 ^ 29 →
    encodeId (decodeId id).1 (decodeId id).2.1 (decodeId id).2.2.1 (decodeId id).2.2.2 = id) ∧
  (∀ ft ch, ttFt (ttCmd ft ch) = ft ∧ ttChannel (ttCmd ft ch) = ch) ∧
  (∀ ft done sn, blkFt (blkCmd ft done sn) = ft ∧ blkDone (blkCmd ft done sn) = done ∧ blkSn (blkCmd ft done sn) = sn) ∧
  (∀ ch, ttChannel (unsCmd ch) = ch) ∧
  (∀ cmd, ttCmd (ttFt cmd) (ttChannel cmd) = cmd) ∧
  (∀ cmd, blkCmd (blkFt cmd) (blkDone cmd) (blkSn cmd) = cmd)

/-- R111, R112, R160, R161, R191, R192: where each field lies, as numbers. -/
def Obligations.FieldsLieWhereTheFormatsPutThem : Prop :=
  (∀ (toAddr : Byte) (t : BitVec 3) (fromAddr : Byte) (cmd : Command),
    (encodeId toAddr t fromAddr cmd).toNat = toAddr.toNat * 2 ^ 21 + t.toNat * 2 ^ 18 + fromAddr.toNat * 2 ^ 10 + cmd.toNat) ∧
  (∀ id : Word32,
    (decodeId id).1.toNat = id.toNat / 2 ^ 21 % 2 ^ 8 ∧ (decodeId id).2.1.toNat = id.toNat / 2 ^ 18 % 2 ^ 3 ∧
    (decodeId id).2.2.1.toNat = id.toNat / 2 ^ 10 % 2 ^ 8 ∧ (decodeId id).2.2.2.toNat = id.toNat % 2 ^ 10) ∧
  (∀ ft ch, (ttCmd ft ch).toNat = ft.toNat * 2 ^ 8 + ch.toNat) ∧
  (∀ ft done sn, (blkCmd ft done sn).toNat = ft.toNat * 2 ^ 7 + done.toNat * 2 ^ 6 + sn.toNat)

/-- R118, R121, R133: every frame kind with every operand has an encoding as the engine builds frames (R110), and decoding
it gives the kind and its operands back. -/
def Obligations.DecodeEncodeAgree : Prop :=
  ∀ (i : Instr) (p : Port), i.wellFormed = true → (pattern i).isSome = true → i.port? = some p →
    ∃ c, encode i = some c ∧ c.extid = true ∧ c.rtr = false ∧ c.id.toNat < 2 ^ 29 ∧ c.data.length ≤ 8 ∧
      decode p c = .ok i

/-- R120, R121, R130 to R132, R134: a decoded frame matches its kind's row of the table; and every extended, non-RTR frame
decodes but for a TIME_SYNC frame to another address than 0x00 (R121 (c)). -/
def Obligations.DecodeFollowsTheTable : Prop :=
  (∀ (p : Port) (c : CanFrame) (i : Instr), decode p c = .ok i →
    c.extid = true ∧ c.rtr = false ∧ i.port? = some p ∧ (c.wellFormed = true → i.wellFormed = true) ∧
    ∃ mask value, pattern i = some (mask, value) ∧ c.id &&& mask = value) ∧
  (∀ (p : Port) (c : CanFrame), c.extid = true → c.rtr = false →
    (∃ i, decode p c = .ok i) ∨
    (decode p c = .error .noFrameKind ∧ c.id.toNat / 2 ^ 18 % 2 ^ 3 = 0 ∧ c.id.toNat / 2 ^ 21 % 2 ^ 8 ≠ 0))

/-- R137: identifier bits 31:29 are built as 0 and ignored on receive. -/
def Obligations.HighIdentifierBits : Prop :=
  (∀ f : LogicalFrame, (encodeFrame f).id.toNat < 2 ^ 29) ∧
  (∀ (p : Port) (c c' : CanFrame), c'.id.toNat % 2 ^ 29 = c.id.toNat % 2 ^ 29 → c'.extid = c.extid → c'.rtr = c.rtr →
    c'.data = c.data → decode p c' = decode p c)

/-- The example words of R201, R204, R210, R211, R212, R220, R224 and R233 decode to the frames they stand for. -/
def Obligations.ExampleWordsDecode : Prop :=
  let p : Port := ⟨.nominal, .received⟩
  decode p ⟨0x02088100, true, false, []⟩ = .ok (.tcAck p 0x10 0x20 0x00 []) ∧
  decode p ⟨0x020C8107, true, false, [0xAA, 0xBB]⟩ = .ok (.tmAck p 0x10 0x20 0x07 [0xAA, 0xBB]) ∧
  decode p ⟨0x04044003, true, false, []⟩ = .ok (.unsol p 0x20 0x10 0x03 []) ∧
  decode p ⟨0x00248000, true, false, []⟩ = .ok (.keepalive p 0x20 0x00 []) ∧
  decode p ⟨0x00004000, true, false, [8, 7, 6, 5, 4, 3, 2, 1]⟩ = .ok (.timesync p 0x10 [8, 7, 6, 5, 4, 3, 2, 1]) ∧
  decode p ⟨0x04104001, true, false, [0x34, 0x12]⟩ = .ok (.sbRequest p 0x20 0x10 1 [0x34, 0x12]) ∧
  decode p ⟨0x021083C0, true, false, [0x03]⟩ = .ok (.sbReport p 0x10 0x20 true 0 [0x03]) ∧
  decode p ⟨0x02148381, true, false, [0, 1, 2, 3, 4, 5, 6, 7]⟩ = .ok (.gbTransfer p 0x10 0x20 1 [0, 1, 2, 3, 4, 5, 6, 7])

/-- R200, R203, R212, R220, R222, R223, R225, R230, R232, R234, and the construction of R210: the identifier, as a sum of
shifted fields, and the data of every frame the engine builds, from a record, for SendTimeSync and for SendUnsolicited; `L` is
the local address. The data of SB TRANSFER `k` are the block's bytes from `8k` up to 8 bytes on or the end of the block; the
data of TIMESYNC are the eight bytes of the time, lowest first (R18). -/
def Obligations.FramesTheEngineBuilds : Prop :=
  ∀ (L : Byte) (tc : TcRec) (tm : TmRec) (sb : SbRec) (gb : GbRec) (time : Word64),
    1 ≤ sb.blocks.toNat → sb.blocks.toNat ≤ 64 → 1 ≤ gb.blocks.toNat → gb.blocks.toNat ≤ 64 →
    let builds (f : LogicalFrame) (toAddr : Byte) (t cmd : Nat) (data : List Byte) : Prop :=
      encodeFrame f =
        { id := BitVec.ofNat 32 (toAddr.toNat * 2 ^ 21 + t * 2 ^ 18 + L.toNat * 2 ^ 10 + cmd), extid := true, rtr := false,
          data := data }
    builds (tcRequestFrame L tc) tc.address 2 tc.channel.toNat tc.data ∧
    builds (tmRequestFrame L tm) tm.address 3 tm.channel.toNat [] ∧
    builds (sbRequestFrame L sb) sb.address 4 (sb.blocks.toNat - 1) sb.start ∧
    builds (sbStatusFrame L sb) sb.address 4 0x300 [] ∧
    builds (sbAbortFrame L sb) sb.address 4 0x180 [] ∧
    builds (gbRequestFrame L gb) gb.address 5 (gb.blocks.toNat - 1) gb.start ∧
    builds (gbStartFrame L gb) gb.address 5 0x300 gb.bitmap ∧
    builds (gbAbortFrame L gb) gb.address 5 0x180 [] ∧
    (sb.blocks.toNat = (sb.data.length + 7) / 8 → ∀ k < sb.blocks.toNat, ∃ f, sbTransferFrame L sb k = .ok f ∧
      builds f sb.address 4 (0x080 + k) ((sb.data.drop (8 * k)).take 8)) ∧
    builds (timesyncOut L time) 0x00 0 0 (leBytes8 time) ∧
    (leBytes8 time).length = 8 ∧ (∀ k < 8, ((leBytes8 time).getD k 0).toNat = time.toNat / 256 ^ k % 256) ∧
    (∀ (toAddr ch : Byte) (data : List Byte), builds (unsolOut L toAddr ch data) toAddr 1 ch.toNat data)

/-- R240: the start address is its little-endian image up to its last byte that is not zero, at least one byte, and the
number is kept. -/
def Obligations.StartAddressIsTrimmed : Prop :=
  ∀ v : Word64,
    (1 ≤ (encodeStart v).length ∧ (encodeStart v).length ≤ 8) ∧
    (∀ k < (encodeStart v).length, ((encodeStart v).getD k 0).toNat = v.toNat / 256 ^ k % 256) ∧
    (1 < (encodeStart v).length → (encodeStart v).getD ((encodeStart v).length - 1) 0 ≠ 0) ∧
    (∀ k, (encodeStart v).length ≤ k → k < 8 → v.toNat / 256 ^ k % 256 = 0) ∧
    leValue (encodeStart v) = v

/-! ### Bitmaps and buffers -/

/-- R270. -/
def Obligations.BitmapLawsOfTheSource : Prop :=
  ∀ (n : Nat) (b : List Byte), 1 ≤ n → b.length = (n + 7) / 8 →
    (∃ b', setFirstN b n = .ok b' ∧ allSet b' n = .ok true) ∧
    allCleared ((List.range n).foldl withBitClear b) n = .ok true ∧
    (∀ k < n, clearBit b k = .ok (withBitClear b k)) ∧
    (∀ i < 8 * b.length, isBitSet b i = .ok (decide (((b.getD (i / 8) 0) >>> (i % 8)) &&& 1 = 1)))

/-- R262, R264 to R269 as what each utility answers bit by bit, where `bitAt` is the bit the statements read and `withBitSet`
the bitmap they write; R268: a bitmap is valid exactly if it has `ceil(n/8)` bytes and every bit from `n` on, the padding, is
clear; and the laws of R271, for indices inside the bitmap. -/
def Obligations.BitmapLawsThatFollow : Prop :=
  (∀ (b : List Byte) (n : Nat), isValid b n = true ↔
    b.length = (n + 7) / 8 ∧ ∀ k, n ≤ k → k < 8 * b.length → isBitSet b k = .ok false) ∧
  (∀ (b : List Byte) (k : Nat), k < 8 * b.length →
    isBitSet b k = .ok (bitAt b k) ∧ setBit b k = .ok (withBitSet b k) ∧ clearBit b k = .ok (withBitClear b k)) ∧
  (∀ (b : List Byte) (n : Nat), n ≤ 8 * b.length →
    allSet b n = .ok (decide (FullBitmap b n)) ∧ allCleared b n = .ok (decide (∀ k < n, bitAt b k = false)) ∧
    (∀ k, firstClear b n = .ok (some k) ↔ LowestClear b n k) ∧
    ∃ bf, setFirstN b n = .ok bf ∧ ∀ m < 8 * b.length, bitAt bf m = (decide (m < n) || bitAt b m)) ∧
  ∀ (b : List Byte) (k m n : Nat), k < 8 * b.length → m < 8 * b.length → n ≤ 8 * b.length →
    ∃ bs bc bf, setBit b k = .ok bs ∧ clearBit b k = .ok bc ∧ setFirstN b n = .ok bf ∧
      isBitSet bs k = .ok true ∧ isBitSet bc k = .ok false ∧
      (m ≠ k → isBitSet bs m = isBitSet b m ∧ isBitSet bc m = isBitSet b m) ∧
      bs.length = b.length ∧ bc.length = b.length ∧ bf.length = b.length ∧
      (isValid b n = true → (k < n → isValid bs n = true ∧ isValid bc n = true) ∧ isValid bf n = true) ∧
      (firstClear b n = .ok none ↔ allSet b n = .ok true) ∧
      (allSet b n = .ok true ∧ allCleared b n = .ok true ↔ n = 0)

/-- R95, R261: outside their range the primitives raise the fault the spec names, and inside it none. -/
def Obligations.PrimitivesFaultOutsideTheirRange : Prop :=
  (∀ (b : List Byte) (k : Nat), 8 * b.length ≤ k →
    setBit b k = .error (.bitmapIndex k b.length) ∧ clearBit b k = .error (.bitmapIndex k b.length) ∧
    isBitSet b k = .error (.bitmapIndex k b.length)) ∧
  (∀ (b : List Byte) (k : Nat), k < 8 * b.length →
    (∃ b', setBit b k = .ok b') ∧ (∃ b', clearBit b k = .ok b') ∧ ∃ v, isBitSet b k = .ok v) ∧
  (∀ (buf : List Byte) (off n : Nat), buf.length < off + n → memRead buf off n = .error (.bufferRange off n)) ∧
  (∀ (buf v : List Byte) (off : Nat), buf.length < off + v.length →
    memWrite buf off v = .error (.bufferRange off v.length)) ∧
  (∀ (buf : List Byte) (off n : Nat), off + n ≤ buf.length →
    ∃ v, memRead buf off n = .ok v ∧ v.length = n ∧ ∀ k < n, v.getD k 0 = buf.getD (off + k) 0) ∧
  (∀ (buf v : List Byte) (off : Nat), off + v.length ≤ buf.length →
    ∃ buf', memWrite buf off v = .ok buf' ∧ buf'.length = buf.length ∧
      (∀ k < v.length, buf'.getD (off + k) 0 = v.getD k 0) ∧
      ∀ k, k < off ∨ off + v.length ≤ k → buf'.getD k 0 = buf.getD k 0)

/-! ### Dispatcher -/

/-- R53, R290: `send_frame` offers the encoded frame to the active driver; an accepted frame joins that driver's in-flight
frames, a refused one does not, and nothing else of the engine changes. The answer list and the count of answers are the
environment's bookkeeping (log entry 2). -/
def Obligations.SendFrameOffersToTheActiveDriver : Prop :=
  ∀ (s : State) (f : LogicalFrame),
    (s.afterSend f = { s with nominal := (s.afterSend f).nominal, redundant := (s.afterSend f).redundant }) ∧
    (s.afterSend f).link (otherBus s.activeBus) = s.link (otherBus s.activeBus) ∧
    ((s.afterSend f).link s.activeBus).state = (s.link s.activeBus).state ∧
    ((s.afterSend f).link s.activeBus).inFlight =
      (s.link s.activeBus).inFlight ++ (if s.accepts then [encodeFrame f] else []) ∧
    ((s.link s.activeBus).isOpen = false → s.accepts = false) ∧
    (∀ a rest, (s.link s.activeBus).isOpen = true → (s.link s.activeBus).answers = a :: rest →
      s.accepts = a ∧ ((s.afterSend f).link s.activeBus).answers = rest)

/-- R120, R166, R291, R297, R298: a notification of a driver does what the frame kind it carries does. A received frame that
decodes runs its kind at that bus; one that does not decode is ignored; a confirmed frame, as the engine builds it, runs its
kind's confirmation. -/
def Obligations.NotificationsRunTheirFrameKind : Prop :=
  (∀ (b : Bus) (c : CanFrame) (i : Instr) (s : State), decode ⟨b, .received⟩ c = .ok i →
    exec (.frameReceived b c) s = exec i s) ∧
  (∀ (b : Bus) (c : CanFrame) (e : DecodeError) (s : State), decode ⟨b, .received⟩ c = .error e →
    exec (.frameReceived b c) s = .next s) ∧
  (∀ (b : Bus) (c : CanFrame) (i : Instr) (s : State), (pattern i).isSome = true → i.port? = some ⟨b, .sent⟩ →
    encode i = some c → exec (.frameSent b c) s = exec i s) ∧
  (∀ (b : Bus) (r : SendErrorReason) (c : CanFrame) (i : Instr) (s : State), (pattern i).isSome = true →
    i.port? = some ⟨b, .sendError r⟩ → encode i = some c → exec (.sendError b c r) s = exec i s)

/-- The model's choice, log entry 15 (DEDUCED): a notification of a closed driver, or of any driver of a stopped engine, that
is posted all the same changes nothing. R34, R36 and R310 (e) say only that it never occurs. -/
def Obligations.ClosedDriversDeliverNothing : Prop :=
  ∀ (i : Instr) (p : Port) (s : State), i.port? = some p → s.delivers p.bus = false → exec i s = .next s

/-- R296: on the inactive bus only a keep-alive gives an event, and it changes no state; everything else is ignored. -/
def Obligations.InactiveBusGivesKeepAlivesOnly : Prop :=
  ∀ (s : State) (b : Bus) (c : CanFrame), s.delivers b = true → b ≠ s.activeBus →
    exec (.frameReceived b c) s =
      if c.extid = true ∧ c.rtr = false ∧ idToAddress c.id = 0x01 ∧ idTransferType c.id = 1 then
        .next { s with out := s.out ++
          [.event (.keepAliveReceivedRedundant (idFromAddress c.id) ((idCommand c.id).extractLsb' 0 8) c.data)] }
      else .next s

/-- R293, R294, R295: what the active bus does with a frame that is not for the local node, and with a TIME_SYNC frame for it. -/
def Obligations.ActiveBusBroadcasts : Prop :=
  ∀ (s : State) (b : Bus) (c : CanFrame), s.Inv → s.hears b → c.extid = true → c.rtr = false →
    (idToAddress c.id = 0x01 → idTransferType c.id = 1 →
      exec (.frameReceived b c) s = .next { s with out := s.out ++
        [.event (.keepAliveReceivedNominal (idFromAddress c.id) ((idCommand c.id).extractLsb' 0 8) c.data)] }) ∧
    (idToAddress c.id = 0x00 → idTransferType c.id = 0 →
      exec (.frameReceived b c) s = .next { s with out := s.out ++
        [.event (.timeSyncReceived (idFromAddress c.id) c.data)] }) ∧
    (idToAddress c.id ≠ s.address → ¬(idToAddress c.id = 0x01 ∧ idTransferType c.id = 1) →
      ¬(idToAddress c.id = 0x00 ∧ idTransferType c.id = 0) → exec (.frameReceived b c) s = .next s) ∧
    (idToAddress c.id = s.address → (idTransferType c.id = 0 ∨ 6 ≤ (idTransferType c.id).toNat) →
      exec (.frameReceived b c) s = .next s)

/-- R136, and R130 on receive: an 11-bit or remote frame is ignored on both buses, and so is a frame of type 6 or 7; every
frame the engine builds is extended and not remote. -/
def Obligations.MalformedFramesAreIgnored : Prop :=
  (∀ (s : State) (b : Bus) (c : CanFrame),
    c.extid = false ∨ c.rtr = true ∨ 6 ≤ (idTransferType c.id).toNat → exec (.frameReceived b c) s = .next s) ∧
  (∀ f : LogicalFrame, (encodeFrame f).extid = true ∧ (encodeFrame f).rtr = false)

/-- R122: the frames a responder is sent are ignored when the local node receives them. -/
def Obligations.ResponderFramesAreIgnored : Prop :=
  ∀ (s : State) (b : Bus) (t f ch : Byte) (n : Seq) (d : List Byte),
    exec (.tcRequest ⟨b, .received⟩ t f ch d) s = .next s ∧ exec (.tmRequest ⟨b, .received⟩ t f ch d) s = .next s ∧
    exec (.sbRequest ⟨b, .received⟩ t f n d) s = .next s ∧ exec (.sbTransfer ⟨b, .received⟩ t f n d) s = .next s ∧
    exec (.sbStatus ⟨b, .received⟩ t f n d) s = .next s ∧ exec (.sbAbort ⟨b, .received⟩ t f n d) s = .next s ∧
    exec (.gbRequest ⟨b, .received⟩ t f n d) s = .next s ∧ exec (.gbStart ⟨b, .received⟩ t f n d) s = .next s ∧
    exec (.gbAbort ⟨b, .received⟩ t f n d) s = .next s

/-- R131, R132, R130: a received frame with a reserved code or type is ignored on either bus; and where a driver confirms one,
which it never accepted from the engine, the frame only leaves that driver. -/
def Obligations.ReservedKindsAreIgnored : Prop :=
  ∀ (s : State) (p : Port) (t f ch : Byte) (n : Seq) (d : List Byte),
    (p.notice = .received →
      exec (.tcReservedFt3 p t f ch d) s = .next s ∧ exec (.tmReservedFt3 p t f ch d) s = .next s ∧
      exec (.sbReservedFt5 p t f n d) s = .next s ∧ exec (.gbReservedFt1 p t f n d) s = .next s ∧
      exec (.gbReservedFt5 p t f n d) s = .next s ∧ exec (.type6Reserved p t f d) s = .next s ∧
      exec (.type7Reserved p t f d) s = .next s) ∧
    (p.notice ≠ .received → s.delivers p.bus = true →
      let left (f : LogicalFrame) : Result := .next (s.settle p.bus (encodeFrame f))
      exec (.tcReservedFt3 p t f ch d) s = left (tcFrame .reserved3 t f ch d) ∧
      exec (.tmReservedFt3 p t f ch d) s = left (tmFrame .reserved3 t f ch d) ∧
      exec (.sbReservedFt5 p t f n d) s = left (sbFrame .reserved5 t f false n d) ∧
      exec (.gbReservedFt1 p t f n d) s = left (gbFrame .reserved1 t f n d) ∧
      exec (.gbReservedFt5 p t f n d) s = left (gbFrame .reserved5 t f n d) ∧
      exec (.type6Reserved p t f d) s = left (reservedFrame .reserved6 t f d) ∧
      exec (.type7Reserved p t f d) s = left (reservedFrame .reserved7 t f d))

/-- R298, R299: a confirmation of a frame kind the engine never sends only removes the frame from the driver. -/
def Obligations.ConfirmedResponsesAreIgnored : Prop :=
  ∀ (s : State) (p : Port) (t f ch : Byte) (n : Seq) (done : Bool) (d : List Byte),
    p.notice ≠ .received → s.delivers p.bus = true →
    let left (f : LogicalFrame) : Result := .next (s.settle p.bus (encodeFrame f))
    exec (.tcAck p t f ch d) s = left (tcFrame .ack t f ch d) ∧ exec (.tcNack p t f ch d) s = left (tcFrame .nack t f ch d) ∧
    exec (.tmAck p t f ch d) s = left (tmFrame .ack t f ch d) ∧ exec (.tmNack p t f ch d) s = left (tmFrame .nack t f ch d) ∧
    exec (.sbAck p t f n d) s = left (sbFrame .ack t f false n d) ∧
    exec (.sbNack p t f n d) s = left (sbFrame .nack t f false n d) ∧
    exec (.sbReport p t f done n d) s = left (sbFrame .report t f done n d) ∧
    exec (.gbAck p t f n d) s = left (gbFrame .ack t f n d) ∧ exec (.gbNack p t f n d) s = left (gbFrame .nack t f n d) ∧
    exec (.gbTransfer p t f n d) s = left (gbFrame .transfer t f n d)

/-- R292, R295, R296: a response or an unsolicited frame that is not for the local node, or not from the active bus, is
ignored; so is one from a driver that delivers nothing, which is the model's choice (log entry 15). -/
def Obligations.FramesForOthersAreIgnored : Prop :=
  ∀ (s : State) (b : Bus) (t f ch : Byte) (n : Seq) (done : Bool) (d : List Byte), ¬(s.hears b ∧ t = s.address) →
    exec (.tcAck ⟨b, .received⟩ t f ch d) s = .next s ∧ exec (.tcNack ⟨b, .received⟩ t f ch d) s = .next s ∧
    exec (.tmAck ⟨b, .received⟩ t f ch d) s = .next s ∧ exec (.tmNack ⟨b, .received⟩ t f ch d) s = .next s ∧
    exec (.sbAck ⟨b, .received⟩ t f n d) s = .next s ∧ exec (.sbNack ⟨b, .received⟩ t f n d) s = .next s ∧
    exec (.sbReport ⟨b, .received⟩ t f done n d) s = .next s ∧ exec (.gbAck ⟨b, .received⟩ t f n d) s = .next s ∧
    exec (.gbNack ⟨b, .received⟩ t f n d) s = .next s ∧ exec (.gbTransfer ⟨b, .received⟩ t f n d) s = .next s ∧
    exec (.unsol ⟨b, .received⟩ t f ch d) s = .next s

/-- R297, R53: a confirmation from the inactive bus is ignored by the engine; the frame leaves the driver that held it, and
nothing else changes. -/
def Obligations.InactiveConfirmationsAreIgnored : Prop :=
  ∀ (s : State) (b : Bus) (c : CanFrame) (r : SendErrorReason), s.delivers b = true → b ≠ s.activeBus →
    ∃ t, exec (.frameSent b c) s = .next t ∧ exec (.sendError b c r) s = .next t ∧
      t = { s with nominal := t.nominal, redundant := t.redundant } ∧ t.link (otherBus b) = s.link (otherBus b) ∧
      t.link b = { s.link b with inFlight := (s.link b).inFlight.erase c }

/-- R300, R529: the bus switch clears the registries with no event and toggles the active bus; a stopped engine ignores it;
two switches restore the bus. -/
def Obligations.BusSwitch : Prop :=
  (∀ s : State, s.running = true →
    exec .canBusSwitch s = .next { s with tc := [], tm := [], sb := [], gb := [], activeBus := otherBus s.activeBus }) ∧
  (∀ s : State, s.running = false → exec .canBusSwitch s = .next s) ∧
  (∀ s t u : State, s.running = true → exec .canBusSwitch s = .next t → exec .canBusSwitch t = .next u →
    u.activeBus = s.activeBus ∧ u.tc = [] ∧ u.tm = [] ∧ u.sb = [] ∧ u.gb = [])

/-! ### Host commands that start a transfer or send a frame -/

/-- R341, R351: a valid SendTC or ReceiveTM sends its REQUEST. Taken, the record of R40 or R41 is created and the command
returns true; refused, there is no record, the failure event is emitted and the command returns false. -/
def Obligations.SendTcAndReceiveTmStart : Prop :=
  (∀ (s : State) (addr ch retry : Byte) (data : List Byte), s.running = true → addr ≠ 0x00 → addr ≠ 0x01 →
    s.lookupTc addr ch = none → data.length ≤ 8 →
    ∃ t, exec (.sendTc addr ch data retry) s = .next t ∧
      let f := tcFrame .request addr s.address ch data
      if s.accepts then
        ChangesTc (s.afterSend f) t addr ch
          (some { address := addr, channel := ch, data := data, retryCount := 0, maxRetries := retry,
                  tx := .sendingRequest, rx := .idle, wd := .idle }) [.result (.bool true)]
      else
        ChangesTc (s.afterSend f) t addr ch none
          [.event (.sendTcFailed addr ch .sendRequestFailed), .result (.bool false)]) ∧
  (∀ (s : State) (addr ch retry : Byte), s.running = true → addr ≠ 0x00 → addr ≠ 0x01 → s.lookupTm addr ch = none →
    ∃ t, exec (.receiveTm addr ch retry) s = .next t ∧
      let f := tmFrame .request addr s.address ch []
      if s.accepts then
        ChangesTm (s.afterSend f) t addr ch
          (some { address := addr, channel := ch, retryCount := 0, maxRetries := retry,
                  tx := .sendingRequest, rx := .idle, wd := .idle }) [.result (.bool true)]
      else
        ChangesTm (s.afterSend f) t addr ch none
          [.event (.receiveTmFailed addr ch .sendRequestFailed), .result (.bool false)])

/-- R381, R380: a valid SendBlock sends its REQUEST; taken, the record of R43 is created, whose bitmap is all clear and valid
for its `ceil(len / 8)` blocks; refused, there is none and SendBlockFailed is emitted. -/
def Obligations.SendBlockStarts : Prop :=
  ∀ (s : State) (addr retry reportRetry : Byte) (start : Word64) (data : List Byte) (delay : Word32),
    s.running = true → addr ≠ 0x00 → addr ≠ 0x01 → s.lookupSb addr = none → 1 ≤ data.length → data.length ≤ 512 →
    ∃ t bitmap, exec (.sendBlock addr start data retry delay reportRetry) s = .next t ∧
      bitmap.length = ((data.length + 7) / 8 + 7) / 8 ∧ (∀ k, bitAt bitmap k = false) ∧
      let blocks : Byte := BitVec.ofNat 8 ((data.length + 7) / 8)
      let f := sbFrame .request addr s.address false (BitVec.ofNat 6 ((data.length + 7) / 8 - 1)) (encodeStart start)
      blocks.toNat = (data.length + 7) / 8 ∧
      if s.accepts then
        ChangesSb (s.afterSend f) t addr
          (some { address := addr, start := encodeStart start, data := data, blocks := blocks, bitmap := bitmap,
                  done := false, retryCount := 0, maxRetries := retry, reportRetryCount := 0,
                  maxReportRetries := reportRetry, reportDelayMs := delay, tx := .sendingRequest, rx := .idle,
                  wd := .idle, rd := .idle }) [.result (.bool true)]
      else
        ChangesSb (s.afterSend f) t addr none
          [.event (.sendBlockFailed addr .sendRequestFailed), .result (.bool false)]

/-- R441, R440: a valid ReceiveBlock sends its REQUEST; taken, the record of R47 is created, whose bitmap has exactly its
`blocks` bits set and whose buffer is `8 * blocks` zero bytes; refused, there is none and ReceiveBlockFailed is emitted. -/
def Obligations.ReceiveBlockStarts : Prop :=
  ∀ (s : State) (addr retry startRetry : Byte) (start : Word64) (length : Nat),
    s.running = true → addr ≠ 0x00 → addr ≠ 0x01 → s.lookupGb addr = none → 1 ≤ length → length ≤ 64 →
    ∃ t bitmap, exec (.receiveBlock addr start length retry startRetry) s = .next t ∧
      bitmap.length = (length + 7) / 8 ∧ (∀ k, bitAt bitmap k = decide (k < length)) ∧
      let f := gbFrame .request addr s.address (BitVec.ofNat 6 (length - 1)) (encodeStart start)
      if s.accepts then
        ChangesGb (s.afterSend f) t addr
          (some { address := addr, start := encodeStart start, blocks := BitVec.ofNat 8 length, bitmap := bitmap,
                  data := List.replicate (8 * length) 0, retryCount := 0, maxRetries := retry, startRetryCount := 0,
                  maxStartRetries := startRetry, tx := .sendingRequest, rx := .idle, wd := .idle }) [.result (.bool true)]
      else
        ChangesGb (s.afterSend f) t addr none
          [.event (.receiveBlockFailed addr .sendRequestFailed), .result (.bool false)]

/-- R490, R492, R493: SendTimeSync and SendUnsolicited send one frame and create no record; refused, the failure event is
emitted and the command returns false. 0x01 is a legal target (C11). -/
def Obligations.AuxiliarySends : Prop :=
  (∀ (s : State) (time : Word64), s.running = true →
    let u := s.afterSend (timesyncFrame s.address (leBytes8 time))
    exec (.sendTimeSync time) s = .next { u with out := s.out ++
      (if s.accepts then [.result (.bool true)] else [.event (.sendTimeSyncFailed time), .result (.bool false)]) }) ∧
  (∀ (s : State) (addr ch : Byte) (data : List Byte), s.running = true → addr ≠ 0x00 → data.length ≤ 8 →
    let u := s.afterSend (unsolFrame addr s.address ch data)
    exec (.sendUnsolicited addr ch data) s = .next { u with out := s.out ++
      (if s.accepts then [.result (.bool true)] else [.event (.sendUnsolicitedFailed addr ch), .result (.bool false)]) })

/-- R565, R529, R306: a command that fails its validation returns false, changes no state and emits nothing; Start, whose
driver opens failed, keeps the address and the timeout it stored. -/
def Obligations.InvalidCommandsAreRefused : Prop :=
  let refused (s : State) : Result := .next { s with out := s.out ++ [.result (.bool false)] }
  (∀ (s : State) (addr ch retry : Byte) (data : List Byte),
    s.running = false ∨ addr = 0x00 ∨ addr = 0x01 ∨ (s.lookupTc addr ch).isSome = true ∨ 8 < data.length →
    exec (.sendTc addr ch data retry) s = refused s) ∧
  (∀ (s : State) (addr ch retry : Byte),
    s.running = false ∨ addr = 0x00 ∨ addr = 0x01 ∨ (s.lookupTm addr ch).isSome = true →
    exec (.receiveTm addr ch retry) s = refused s) ∧
  (∀ (s : State) (addr retry reportRetry : Byte) (start : Word64) (data : List Byte) (delay : Word32),
    s.running = false ∨ addr = 0x00 ∨ addr = 0x01 ∨ (s.lookupSb addr).isSome = true ∨ data.length = 0 ∨ 512 < data.length →
    exec (.sendBlock addr start data retry delay reportRetry) s = refused s) ∧
  (∀ (s : State) (addr retry startRetry : Byte) (start : Word64) (length : Nat),
    s.running = false ∨ addr = 0x00 ∨ addr = 0x01 ∨ (s.lookupGb addr).isSome = true ∨ length = 0 ∨ 64 < length →
    exec (.receiveBlock addr start length retry startRetry) s = refused s) ∧
  (∀ (s : State) (time : Word64), s.running = false → exec (.sendTimeSync time) s = refused s) ∧
  (∀ (s : State) (addr ch : Byte) (data : List Byte), s.running = false ∨ addr = 0x00 ∨ 8 < data.length →
    exec (.sendUnsolicited addr ch data) s = refused s) ∧
  (∀ (s : State) (addr : Byte) (ms : Word32) (cfg : Settings),
    addr = 0x00 ∨ addr = 0x01 ∨ cfg = .nonSerial ∨ s.running = true → exec (.start addr ms cfg) s = refused s) ∧
  (∀ (s : State) (addr : Byte) (ms : Word32) (nom red : PortSettings), addr ≠ 0x00 → addr ≠ 0x01 → s.running = false →
    (s.nominal.nextAnswer .nominal = false ∨ s.redundant.nextAnswer .redundant = false) →
    ∃ t, exec (.start addr ms (.serial nom red)) s = .next t ∧
      t = { s with address := addr, timeoutMs := ms, nominal := t.nominal, redundant := t.redundant,
                   out := s.out ++ [.result (.bool false)] })

/-! ### Telecommand and telemetry -/

/-- R342, R352: the confirmed REQUEST of a record in SendingRequest starts its watchdog, moves it to WaitingForRequestAck and
counts the attempt; any other confirmation of a REQUEST is ignored (R299). -/
def Obligations.TelecommandRequestConfirmed : Prop :=
  (∀ (s : State) (b : Bus) (t f ch : Byte) (d : List Byte), s.hears b →
    let u := s.settle b (encodeFrame (tcFrame .request t f ch d))
    ∃ t', exec (.tcRequest ⟨b, .sent⟩ t f ch d) s = .next t' ∧
      (∀ r, s.lookupTc t ch = some r → r.tx = .sendingRequest →
        ChangesTc u t' t ch (some { r with wd := .armed s.timeoutMs, tx := .idle, rx := .waitingForRequestAck,
                                           retryCount := r.retryCount + 1 }) []) ∧
      ((∀ r, s.lookupTc t ch = some r → r.tx ≠ .sendingRequest) → t' = u)) ∧
  (∀ (s : State) (b : Bus) (t f ch : Byte) (d : List Byte), s.hears b →
    let u := s.settle b (encodeFrame (tmFrame .request t f ch d))
    ∃ t', exec (.tmRequest ⟨b, .sent⟩ t f ch d) s = .next t' ∧
      (∀ r, s.lookupTm t ch = some r → r.tx = .sendingRequest →
        ChangesTm u t' t ch (some { r with wd := .armed s.timeoutMs, tx := .idle, rx := .waitingForRequestAck,
                                           retryCount := r.retryCount + 1 }) []) ∧
      ((∀ r, s.lookupTm t ch = some r → r.tx ≠ .sendingRequest) → t' = u))

/-- R344, R354: an ACK completes the transfer that waits for it, whatever its data; TM delivers the whole data field; any other
ACK is ignored (R348). -/
def Obligations.TelecommandAck : Prop :=
  (∀ (s : State) (b : Bus) (f ch : Byte) (d : List Byte), s.hears b →
    ∃ t, exec (.tcAck ⟨b, .received⟩ s.address f ch d) s = .next t ∧
      (∀ r, s.lookupTc f ch = some r → r.rx = .waitingForRequestAck →
        ChangesTc s t f ch none [.event (.sendTcCompleted f ch)]) ∧
      ((∀ r, s.lookupTc f ch = some r → r.rx ≠ .waitingForRequestAck) → t = s)) ∧
  (∀ (s : State) (b : Bus) (f ch : Byte) (d : List Byte), s.hears b →
    ∃ t, exec (.tmAck ⟨b, .received⟩ s.address f ch d) s = .next t ∧
      (∀ r, s.lookupTm f ch = some r → r.rx = .waitingForRequestAck →
        ChangesTm s t f ch none [.event (.receiveTmCompleted f ch d)]) ∧
      ((∀ r, s.lookupTm f ch = some r → r.rx ≠ .waitingForRequestAck) → t = s))

/-- R343, R353, with R346 and R356: a NACK stops the watchdog of the transfer that waits and retries it; any other NACK is
ignored (R348). -/
def Obligations.TelecommandNack : Prop :=
  (∀ (s : State) (b : Bus) (f ch : Byte) (d : List Byte), s.hears b →
    ∃ t, exec (.tcNack ⟨b, .received⟩ s.address f ch d) s = .next t ∧
      (∀ r, s.lookupTc f ch = some r → r.rx = .waitingForRequestAck → RetriesTc s t { r with wd := .idle, rx := .idle }) ∧
      ((∀ r, s.lookupTc f ch = some r → r.rx ≠ .waitingForRequestAck) → t = s)) ∧
  (∀ (s : State) (b : Bus) (f ch : Byte) (d : List Byte), s.hears b →
    ∃ t, exec (.tmNack ⟨b, .received⟩ s.address f ch d) s = .next t ∧
      (∀ r, s.lookupTm f ch = some r → r.rx = .waitingForRequestAck → RetriesTm s t { r with wd := .idle, rx := .idle }) ∧
      ((∀ r, s.lookupTm f ch = some r → r.rx ≠ .waitingForRequestAck) → t = s))

/-- R345, R355, with R346 and R356: an armed watchdog that fires is idle afterwards (R50) and retries its transfer. That the
fire of an idle watchdog, or of one without a record, changes nothing is the model's choice, log entry 15 (DEDUCED): R50 says
that such a fire is never delivered. -/
def Obligations.TelecommandWatchdog : Prop :=
  (∀ (s : State) (a ch : Byte), s.running = true →
    ∃ t, exec (.wdFireTc a ch) s = .next t ∧
      (∀ r, s.lookupTc a ch = some r → r.wd.isArmed = true → RetriesTc s t { r with wd := .idle, rx := .idle }) ∧
      ((∀ r, s.lookupTc a ch = some r → r.wd = .idle) → t = s)) ∧
  (∀ (s : State) (a ch : Byte), s.running = true →
    ∃ t, exec (.wdFireTm a ch) s = .next t ∧
      (∀ r, s.lookupTm a ch = some r → r.wd.isArmed = true → RetriesTm s t { r with wd := .idle, rx := .idle }) ∧
      ((∀ r, s.lookupTm a ch = some r → r.wd = .idle) → t = s))

/-- R347, R357: the send error of the REQUEST of a record in SendingRequest, for either reason, ends the transfer with
SendRequestFailed; any other is dropped. -/
def Obligations.TelecommandSendError : Prop :=
  (∀ (s : State) (b : Bus) (e : SendErrorReason) (t f ch : Byte) (d : List Byte), s.hears b →
    let u := s.settle b (encodeFrame (tcFrame .request t f ch d))
    ∃ t', exec (.tcRequest ⟨b, .sendError e⟩ t f ch d) s = .next t' ∧
      (∀ r, s.lookupTc t ch = some r → r.tx = .sendingRequest →
        ChangesTc u t' t ch none [.event (.sendTcFailed t ch .sendRequestFailed)]) ∧
      ((∀ r, s.lookupTc t ch = some r → r.tx ≠ .sendingRequest) → t' = u)) ∧
  (∀ (s : State) (b : Bus) (e : SendErrorReason) (t f ch : Byte) (d : List Byte), s.hears b →
    let u := s.settle b (encodeFrame (tmFrame .request t f ch d))
    ∃ t', exec (.tmRequest ⟨b, .sendError e⟩ t f ch d) s = .next t' ∧
      (∀ r, s.lookupTm t ch = some r → r.tx = .sendingRequest →
        ChangesTm u t' t ch none [.event (.receiveTmFailed t ch .sendRequestFailed)]) ∧
      ((∀ r, s.lookupTm t ch = some r → r.tx ≠ .sendingRequest) → t' = u))

/-- R360: no step leaves a TC or TM record with more than `max_retries + 1` confirmed REQUESTs, or with a REQUEST in flight
after `max_retries + 1`; a cap of 255 never runs out (R637). -/
def Obligations.StepKeepsTheRetryBudget : Prop :=
  ∀ s t : State, s.Budget → step s = .next t → t.Budget

/-! ### Set block -/

/-- R382, R389, R399: a confirmed REQUEST, STATUS or ABORT of a record in its Sending state starts the watchdog, moves the
record to its Waiting state and counts the frame; any other confirmation of one is ignored (R299). -/
def Obligations.SetBlockConfirmed : Prop :=
  ∀ (s : State) (b : Bus) (t f : Byte) (n : Seq) (d : List Byte), s.hears b →
    let waits (kind : SbFrameType) (i : Instr) (tx : SbTx) (rx : BlkRx) : Prop :=
      let u := s.settle b (encodeFrame (sbFrame kind t f false n d))
      ∃ t', exec i s = .next t' ∧
        (∀ r, s.lookupSb t = some r → r.tx = tx →
          ChangesSb u t' t (some { r with wd := .armed s.timeoutMs, tx := .idle, rx := rx,
                                          retryCount := r.retryCount + 1 }) []) ∧
        ((∀ r, s.lookupSb t = some r → r.tx ≠ tx) → t' = u)
    waits .request (.sbRequest ⟨b, .sent⟩ t f n d) .sendingRequest .waitingForRequestAck ∧
    waits .status (.sbStatus ⟨b, .sent⟩ t f n d) .sendingStatusRequest .waitingForData ∧
    waits .abort (.sbAbort ⟨b, .sent⟩ t f n d) .sendingAbort .waitingForAbortAck

/-- R386, R387: the confirmation of TRANSFER `seq` marks its bit; then the lowest unmarked frame is sent, or, when every frame
is marked, the report-delay timer is armed. A confirmation in another state, or with `seq ≥ blocks`, is ignored. -/
def Obligations.SetBlockTransferConfirmed : Prop :=
  ∀ (s : State) (b : Bus) (t f : Byte) (seq : Seq) (d : List Byte), s.Inv → s.hears b →
    let u := s.settle b (encodeFrame (sbFrame .transfer t f false seq d))
    ∃ t', exec (.sbTransfer ⟨b, .sent⟩ t f seq d) s = .next t' ∧
      (∀ r, s.lookupSb t = some r → r.tx = .sendingData → seq.toNat < r.blocks.toNat →
        let bitmap := withBitSet r.bitmap seq.toNat
        (∀ k, LowestClear bitmap r.blocks.toNat k →
          HandsOffSb u t' { r with bitmap := bitmap } (transferFrame s.address r k) .sendingData .sendDataFailed) ∧
        (FullBitmap bitmap r.blocks.toNat →
          ChangesSb u t' t (some { r with bitmap := bitmap, rd := .armed r.reportDelayMs,
                                          tx := .waitingForSendStatusRequest }) [])) ∧
      ((∀ r, s.lookupSb t = some r → r.tx = .sendingData → r.blocks.toNat ≤ seq.toNat) → t' = u)

/-- R388: an armed report-delay timer that fires is idle afterwards (R50) and sends STATUS. That the fire of an idle one, or
of one without a record, changes nothing is the model's choice, log entry 15 (DEDUCED): R50 says that such a fire is never
delivered. -/
def Obligations.SetBlockReportDelay : Prop :=
  ∀ (s : State) (a : Byte), s.running = true →
    ∃ t, exec (.rdFireSb a) s = .next t ∧
      (∀ r, s.lookupSb a = some r → r.rd.isArmed = true →
        HandsOffSb s t { r with rd := .idle } (sbFrame .status a s.address false 0 []) .sendingStatusRequest
          .sendStatusRequestFailed) ∧
      ((∀ r, s.lookupSb a = some r → r.rd = .idle) → t = s)

/-- R383, R384, R400, R409: an ACK by the state it meets. In WaitingForRequestAck a valid one starts the data phase with
TRANSFER 0; in WaitingForAbortAck a valid one completes the transfer on the success path and fails it otherwise; every other
ACK is ignored. -/
def Obligations.SetBlockAck : Prop :=
  ∀ (s : State) (b : Bus) (f : Byte) (n : Seq) (d : List Byte), s.Inv → s.hears b →
    ∃ t, exec (.sbAck ⟨b, .received⟩ s.address f n d) s = .next t ∧
      (∀ r, s.lookupSb f = some r → r.rx = .waitingForRequestAck → n.toNat + 1 = r.blocks.toNat → d = r.start →
        HandsOffSb s t { r with wd := .idle, rx := .idle } (transferFrame s.address r 0) .sendingData .sendDataFailed) ∧
      (∀ r, s.lookupSb f = some r → r.rx = .waitingForAbortAck → n = 0 → d = [] →
        ChangesSb s t f none
          [.event (if r.succeeded then .sendBlockCompleted f else .sendBlockFailed f .maxReportRetriesReached)]) ∧
      ((∀ r, s.lookupSb f = some r →
          ¬(r.rx = .waitingForRequestAck ∧ n.toNat + 1 = r.blocks.toNat ∧ d = r.start) ∧
          ¬(r.rx = .waitingForAbortAck ∧ n = 0 ∧ d = [])) → t = s)

/-- R385, R390, R402, with R404 and R405: a NACK by the state it meets. It retries the REQUEST or the STATUS, whatever its
content; in WaitingForAbortAck a valid one fails the transfer; every other NACK is ignored. -/
def Obligations.SetBlockNack : Prop :=
  ∀ (s : State) (b : Bus) (f : Byte) (n : Seq) (d : List Byte), s.Inv → s.hears b →
    ∃ t, exec (.sbNack ⟨b, .received⟩ s.address f n d) s = .next t ∧
      (∀ r, s.lookupSb f = some r → r.rx = .waitingForRequestAck → RetriesSbRequest s t { r with wd := .idle, rx := .idle }) ∧
      (∀ r, s.lookupSb f = some r → r.rx = .waitingForData → RetriesSbStatus s t { r with wd := .idle, rx := .idle }) ∧
      (∀ r, s.lookupSb f = some r → r.rx = .waitingForAbortAck → n = 0 → d = [] →
        FailsSb s t r (if r.succeeded then .abortNackReceived else .maxReportRetriesReached)) ∧
      ((∀ r, s.lookupSb f = some r → r.rx = .idle ∨ (r.rx = .waitingForAbortAck ∧ ¬(n = 0 ∧ d = []))) → t = s)

/-- R391 to R398: a valid REPORT in WaitingForData stops the watchdog and stores the reported bitmap and done bit; then, in
this order, it ends the transfer with ABORT when done, aborts it when the report budget is spent, waits again when every frame
is held, or sends the lowest missing frame. An invalid REPORT, or one in another state, is ignored. -/
def Obligations.SetBlockReport : Prop :=
  ∀ (s : State) (b : Bus) (f : Byte) (done : Bool) (n : Seq) (d : List Byte), s.Inv → s.hears b →
    let valid (r : SbRec) : Prop :=
      r.rx = .waitingForData ∧ isValid d r.blocks.toNat = true ∧ (done = true → FullBitmap d r.blocks.toNat)
    ∃ t, exec (.sbReport ⟨b, .received⟩ s.address f done n d) s = .next t ∧
      (∀ r, s.lookupSb f = some r → valid r →
        let q : SbRec := { r with wd := .idle, rx := .idle, bitmap := d, done := done }
        let counted : SbRec := { q with reportRetryCount := r.reportRetryCount + 1 }
        if done = true ∨ r.maxReportRetries.toNat < r.reportRetryCount.toNat then
          HandsOffSb s t q (sbFrame .abort f s.address false 0 []) .sendingAbort .sendAbortFailed
        else
          (FullBitmap d r.blocks.toNat →
            ChangesSb s t f (some { counted with rd := .armed r.reportDelayMs, tx := .waitingForSendStatusRequest }) []) ∧
          (∀ k, LowestClear d r.blocks.toNat k →
            HandsOffSb s t counted (transferFrame s.address r k) .sendingData .sendDataFailed)) ∧
      ((∀ r, s.lookupSb f = some r → ¬valid r) → t = s)

/-- R420, R421, with R404 to R406: an armed SB watchdog that fires is idle afterwards (R50), sets `rx_state` to Idle and runs
the retry policy of the state it left, or always the STATUS retry when `WATCHDOG_DISPATCH` is literal. That the fire of an idle
one, or of one without a record, changes nothing is the model's choice, log entry 15 (DEDUCED): R50 says that such a fire is
never delivered. -/
def Obligations.SetBlockWatchdog : Prop :=
  ∀ (s : State) (a : Byte), s.Inv → s.running = true →
    ∃ t, exec (.wdFireSb a) s = .next t ∧
      (∀ r, s.lookupSb a = some r → r.wd.isArmed = true →
        let q : SbRec := { r with wd := .idle, rx := .idle }
        (s.params.watchdogDispatch = .literal → RetriesSbStatus s t q) ∧
        (s.params.watchdogDispatch = .perState →
          (r.rx = .waitingForRequestAck → RetriesSbRequest s t q) ∧ (r.rx = .waitingForData → RetriesSbStatus s t q) ∧
          (r.rx = .waitingForAbortAck → RetriesSbAbort s t q))) ∧
      ((∀ r, s.lookupSb a = some r → r.wd = .idle) → t = s)

/-- R407, R408: the send error of the frame in flight ends the transfer with the kind of that frame; any other is dropped. -/
def Obligations.SetBlockSendError : Prop :=
  ∀ (s : State) (b : Bus) (e : SendErrorReason) (t f : Byte) (n : Seq) (d : List Byte), s.hears b →
    let fails (ft : SbFrameType) (i : Instr) (tx : SbTx) (kind : SbKind) : Prop :=
      let u := s.settle b (encodeFrame (sbFrame ft t f false n d))
      ∃ t', exec i s = .next t' ∧
        (∀ r, s.lookupSb t = some r → r.tx = tx → ChangesSb u t' t none [.event (.sendBlockFailed t kind)]) ∧
        ((∀ r, s.lookupSb t = some r → r.tx ≠ tx) → t' = u)
    fails .request (.sbRequest ⟨b, .sendError e⟩ t f n d) .sendingRequest .sendRequestFailed ∧
    fails .transfer (.sbTransfer ⟨b, .sendError e⟩ t f n d) .sendingData .sendDataFailed ∧
    fails .status (.sbStatus ⟨b, .sendError e⟩ t f n d) .sendingStatusRequest .sendStatusRequestFailed ∧
    fails .abort (.sbAbort ⟨b, .sendError e⟩ t f n d) .sendingAbort .sendAbortFailed

/-! ### Get block -/

/-- R442, R445, R469: a confirmed REQUEST or ABORT of a record in its Sending state counts in `retry_count`, a confirmed START
in `start_retry_count`; each starts the watchdog and moves the record to its Waiting state; any other confirmation of one is
ignored (R299). -/
def Obligations.GetBlockConfirmed : Prop :=
  ∀ (s : State) (b : Bus) (t f : Byte) (n : Seq) (d : List Byte), s.hears b →
    let waits (kind : GbFrameType) (i : Instr) (tx : GbTx) (after : GbRec → GbRec) : Prop :=
      let u := s.settle b (encodeFrame (gbFrame kind t f n d))
      ∃ t', exec i s = .next t' ∧
        (∀ r, s.lookupGb t = some r → r.tx = tx →
          ChangesGb u t' t (some { after r with wd := .armed s.timeoutMs, tx := .idle }) []) ∧
        ((∀ r, s.lookupGb t = some r → r.tx ≠ tx) → t' = u)
    waits .request (.gbRequest ⟨b, .sent⟩ t f n d) .sendingRequest
      (fun r => { r with rx := .waitingForRequestAck, retryCount := r.retryCount + 1 }) ∧
    waits .start (.gbStart ⟨b, .sent⟩ t f n d) .sendingStart
      (fun r => { r with rx := .waitingForData, startRetryCount := r.startRetryCount + 1 }) ∧
    waits .abort (.gbAbort ⟨b, .sent⟩ t f n d) .sendingAbort
      (fun r => { r with rx := .waitingForAbortAck, retryCount := r.retryCount + 1 })

/-- R443, R467, R475: an ACK by the state it meets. In WaitingForRequestAck a valid one sends START with the record's bitmap;
in WaitingForAbortAck a valid one delivers the data, or fails when the START budget is spent; every other ACK is ignored. -/
def Obligations.GetBlockAck : Prop :=
  ∀ (s : State) (b : Bus) (f : Byte) (n : Seq) (d : List Byte), s.hears b →
    ∃ t, exec (.gbAck ⟨b, .received⟩ s.address f n d) s = .next t ∧
      (∀ r, s.lookupGb f = some r → r.rx = .waitingForRequestAck → n.toNat + 1 = r.blocks.toNat → d = r.start →
        HandsOffGb s t { r with wd := .idle, rx := .idle } (gbFrame .start f s.address 0 r.bitmap) .sendingStart
          .sendStartFailed) ∧
      (∀ r, s.lookupGb f = some r → r.rx = .waitingForAbortAck → n = 0 → d = [] →
        ChangesGb s t f none
          [.event (if r.maxStartRetries.toNat < r.startRetryCount.toNat then
              .receiveBlockFailed f .maxSendStartRetriesReached
            else .receiveBlockCompleted f r.data)]) ∧
      ((∀ r, s.lookupGb f = some r →
          ¬(r.rx = .waitingForRequestAck ∧ n.toNat + 1 = r.blocks.toNat ∧ d = r.start) ∧
          ¬(r.rx = .waitingForAbortAck ∧ n = 0 ∧ d = [])) → t = s)

/-- R444, R446, R468, with R470 and R472: a NACK by the state it meets. It retries the REQUEST or the START, whatever its
content; in WaitingForAbortAck a valid one fails the transfer; every other NACK is ignored. -/
def Obligations.GetBlockNack : Prop :=
  ∀ (s : State) (b : Bus) (f : Byte) (n : Seq) (d : List Byte), s.hears b →
    ∃ t, exec (.gbNack ⟨b, .received⟩ s.address f n d) s = .next t ∧
      (∀ r, s.lookupGb f = some r → r.rx = .waitingForRequestAck → RetriesGbRequest s t { r with wd := .idle, rx := .idle }) ∧
      (∀ r, s.lookupGb f = some r → r.rx = .waitingForData → RetriesGbStart s t { r with wd := .idle, rx := .idle }) ∧
      (∀ r, s.lookupGb f = some r → r.rx = .waitingForAbortAck → n = 0 → d = [] → FailsGb s t r .abortNackReceived) ∧
      ((∀ r, s.lookupGb f = some r → r.rx = .idle ∨ (r.rx = .waitingForAbortAck ∧ ¬(n = 0 ∧ d = []))) → t = s)

/-- R460 to R466: a TRANSFER in WaitingForData with 8 bytes and an outstanding `seq < blocks` clears its bit, resets
`retry_count` and stores its bytes at offset `8 * seq`. When it was the last, ABORT is sent; otherwise the watchdog is
restarted or left stopped as `GB_DATA_WATCHDOG` says. Every other TRANSFER is ignored. -/
def Obligations.GetBlockTransfer : Prop :=
  ∀ (s : State) (b : Bus) (f : Byte) (seq : Seq) (d : List Byte), s.Inv → s.hears b →
    let valid (r : GbRec) : Prop :=
      r.rx = .waitingForData ∧ d.length = 8 ∧ seq.toNat < r.blocks.toNat ∧ bitAt r.bitmap seq.toNat = true
    ∃ t, exec (.gbTransfer ⟨b, .received⟩ s.address f seq d) s = .next t ∧
      (∀ r, s.lookupGb f = some r → valid r →
        let q : GbRec := { r with wd := .idle, retryCount := 0, bitmap := withBitClear r.bitmap seq.toNat,
                                  data := r.data.take (8 * seq.toNat) ++ d ++ r.data.drop (8 * seq.toNat + 8) }
        if ∀ k < r.blocks.toNat, k ≠ seq.toNat → bitAt r.bitmap k = false then
          HandsOffGb s t { q with rx := .idle } (gbFrame .abort f s.address 0 []) .sendingAbort .sendAbortFailed
        else
          (s.params.gbDataWatchdog = .restart → ChangesGb s t f (some { q with wd := .armed s.timeoutMs }) []) ∧
          (s.params.gbDataWatchdog = .stop → ChangesGb s t f (some q) [])) ∧
      ((∀ r, s.lookupGb f = some r → ¬valid r) → t = s)

/-- R471, with R470, R472 and R473: an armed GB watchdog that fires is idle afterwards (R50), sets `rx_state` to Idle and runs
the retry policy of the state it left, or always the REQUEST retry when `WATCHDOG_DISPATCH` is literal. That the fire of an idle
one, or of one without a record, changes nothing is the model's choice, log entry 15 (DEDUCED): R50 says that such a fire is
never delivered. -/
def Obligations.GetBlockWatchdog : Prop :=
  ∀ (s : State) (a : Byte), s.running = true →
    ∃ t, exec (.wdFireGb a) s = .next t ∧
      (∀ r, s.lookupGb a = some r → r.wd.isArmed = true →
        let q : GbRec := { r with wd := .idle, rx := .idle }
        (s.params.watchdogDispatch = .literal → RetriesGbRequest s t q) ∧
        (s.params.watchdogDispatch = .perState →
          (r.rx = .waitingForRequestAck → RetriesGbRequest s t q) ∧ (r.rx = .waitingForData → RetriesGbStart s t q) ∧
          (r.rx = .waitingForAbortAck → RetriesGbAbort s t q))) ∧
      ((∀ r, s.lookupGb a = some r → r.wd = .idle) → t = s)

/-- R474: the send error of the frame in flight ends the transfer with the kind of that frame; any other is dropped. -/
def Obligations.GetBlockSendError : Prop :=
  ∀ (s : State) (b : Bus) (e : SendErrorReason) (t f : Byte) (n : Seq) (d : List Byte), s.hears b →
    let fails (ft : GbFrameType) (i : Instr) (tx : GbTx) (kind : GbKind) : Prop :=
      let u := s.settle b (encodeFrame (gbFrame ft t f n d))
      ∃ t', exec i s = .next t' ∧
        (∀ r, s.lookupGb t = some r → r.tx = tx → ChangesGb u t' t none [.event (.receiveBlockFailed t kind)]) ∧
        ((∀ r, s.lookupGb t = some r → r.tx ≠ tx) → t' = u)
    fails .request (.gbRequest ⟨b, .sendError e⟩ t f n d) .sendingRequest .sendRequestFailed ∧
    fails .start (.gbStart ⟨b, .sendError e⟩ t f n d) .sendingStart .sendStartFailed ∧
    fails .abort (.gbAbort ⟨b, .sendError e⟩ t f n d) .sendingAbort .sendAbortFailed

/-! ### Time-sync, unsolicited, keep-alive -/

/-- R491, R494: a confirmed time-sync or unsolicited frame gives its Completed event, a send error its Failed event; the state
of the engine is unchanged. The frame kinds (UNSOL to any address, KEEPALIVE, TIMESYNC) and the notifications agree, and the
time of the event is the time that was sent. R491 speaks of 8 data bytes; the value of a data field of another length is the
model's choice, log entry 9 (DEDUCED). -/
def Obligations.AuxiliaryConfirmed : Prop :=
  (∀ (s : State) (b : Bus) (c : CanFrame) (e : SendErrorReason), s.hears b → idTransferType c.id = 0 →
    exec (.frameSent b c) s =
      .next { s.settle b c with out := s.out ++ [.event (.sendTimeSyncCompleted (leValue c.data))] } ∧
    exec (.sendError b c e) s =
      .next { s.settle b c with out := s.out ++ [.event (.sendTimeSyncFailed (leValue c.data))] }) ∧
  (∀ (s : State) (b : Bus) (c : CanFrame) (e : SendErrorReason), s.hears b → idTransferType c.id = 1 →
    let ch : Byte := (idCommand c.id).extractLsb' 0 8
    exec (.frameSent b c) s =
      .next { s.settle b c with out := s.out ++ [.event (.sendUnsolicitedCompleted (idToAddress c.id) ch)] } ∧
    exec (.sendError b c e) s =
      .next { s.settle b c with out := s.out ++ [.event (.sendUnsolicitedFailed (idToAddress c.id) ch)] }) ∧
  (∀ (s : State) (b : Bus) (e : SendErrorReason) (t f ch : Byte) (d : List Byte), s.hears b →
    let after (fr : LogicalFrame) (ev : OutEvent) : Result :=
      .next { s.settle b (encodeFrame fr) with out := s.out ++ [.event ev] }
    exec (.unsol ⟨b, .sent⟩ t f ch d) s = after (unsolFrame t f ch d) (.sendUnsolicitedCompleted t ch) ∧
    exec (.unsol ⟨b, .sendError e⟩ t f ch d) s = after (unsolFrame t f ch d) (.sendUnsolicitedFailed t ch) ∧
    exec (.keepalive ⟨b, .sent⟩ f ch d) s = after (unsolFrame 0x01 f ch d) (.sendUnsolicitedCompleted 0x01 ch) ∧
    exec (.keepalive ⟨b, .sendError e⟩ f ch d) s = after (unsolFrame 0x01 f ch d) (.sendUnsolicitedFailed 0x01 ch) ∧
    exec (.timesync ⟨b, .sent⟩ f d) s = after (timesyncFrame f d) (.sendTimeSyncCompleted (leValue d)) ∧
    exec (.timesync ⟨b, .sendError e⟩ f d) s = after (timesyncFrame f d) (.sendTimeSyncFailed (leValue d))) ∧
  (∀ time : Word64, leValue (leBytes8 time) = time)

/-- R495 to R498: the receive paths give one event with the frame's sender, channel and data, and change no state. -/
def Obligations.AuxiliaryReceived : Prop :=
  ∀ (s : State) (b : Bus) (f ch : Byte) (d : List Byte), s.Inv → s.delivers b = true →
    (b = s.activeBus →
      exec (.unsol ⟨b, .received⟩ s.address f ch d) s =
        .next { s with out := s.out ++ [.event (.unsolicitedReceived f ch d)] } ∧
      exec (.keepalive ⟨b, .received⟩ f ch d) s =
        .next { s with out := s.out ++ [.event (.keepAliveReceivedNominal f ch d)] } ∧
      exec (.timesync ⟨b, .received⟩ f d) s = .next { s with out := s.out ++ [.event (.timeSyncReceived f d)] }) ∧
    (b ≠ s.activeBus →
      exec (.keepalive ⟨b, .received⟩ f ch d) s =
        .next { s with out := s.out ++ [.event (.keepAliveReceivedRedundant f ch d)] } ∧
      exec (.timesync ⟨b, .received⟩ f d) s = .next s)

/-! ### Lifecycle -/

/-- R520, R523: a valid Start stores the address and the timeout and opens Nominal, then Redundant. When both open, the engine
runs on Nominal with nothing in flight and the command returns true; when an open fails, no driver is open, the engine stays
stopped and the command returns false. -/
def Obligations.StartOpensBothDrivers : Prop :=
  ∀ (s : State) (addr : Byte) (ms : Word32) (nom red : PortSettings), addr ≠ 0x00 → addr ≠ 0x01 → s.running = false →
    s.nominal.isOpen = false → s.redundant.isOpen = false →
    ∃ t, exec (.start addr ms (.serial nom red)) s = .next t ∧
      if s.nominal.nextAnswer .nominal = true ∧ s.redundant.nextAnswer .redundant = true then
        t = { s with address := addr, timeoutMs := ms, activeBus := .nominal, running := true, nominal := t.nominal,
                     redundant := t.redundant, out := s.out ++ [.result (.bool true)] } ∧
        t.nominal.state = .opened nom ∧ t.redundant.state = .opened red ∧ t.nominal.inFlight = [] ∧
        t.redundant.inFlight = []
      else
        t = { s with address := addr, timeoutMs := ms, nominal := t.nominal, redundant := t.redundant,
                     out := s.out ++ [.result (.bool false)] } ∧
        t.nominal.state = .closed ∧ t.redundant.state = .closed

/-- R524, R525: Stop empties the registries with no event, closes both drivers with their frames discarded, and stops the
engine; nothing else changes; a stopped engine ignores it. -/
def Obligations.StopClearsAndCloses : Prop :=
  (∀ s : State, s.running = true →
    exec .stop s = .next { s with running := false, tc := [], tm := [], sb := [], gb := [],
                                  nominal := { s.nominal with state := .closed, inFlight := [] },
                                  redundant := { s.redundant with state := .closed, inFlight := [] } }) ∧
  (∀ s : State, s.running = false → exec .stop s = .next s)

/-- R526, R527, R528: the accessors give the active bus and the address to the host, in every state, and change nothing. -/
def Obligations.Accessors : Prop :=
  ∀ s : State,
    exec .getActiveBus s = .next { s with out := s.out ++ [.result (.bus s.activeBus)] } ∧
    exec .getAddress s = .next { s with out := s.out ++ [.result (.address s.address)] }

/-- R65, for every value of the address and the timeout, which the spec leaves open (log entry 1), and both values of each
parameter (log entry 3). -/
def Obligations.ResetValues : Prop :=
  ∀ (addr : Byte) (ms : Word32) (p : Params),
    let s := State.resetWith addr ms p
    s.running = false ∧ s.activeBus = .nominal ∧ s.nominal.state = .closed ∧ s.redundant.state = .closed ∧
    s.tc = [] ∧ s.tm = [] ∧ s.sb = [] ∧ s.gb = [] ∧ s.nominal.inFlight = [] ∧ s.redundant.inFlight = [] ∧
    s.pending = [] ∧ s.out = []

/-- The invariants hold at reset, whatever the spec leaves open there. -/
def Obligations.ResetMeetsTheInvariants : Prop :=
  ∀ (addr : Byte) (ms : Word32) (p : Params), (State.resetWith addr ms p).Inv ∧ (State.resetWith addr ms p).Budget

/-! ### The machine as a whole -/

/-- R85, R91, R599: one step delivers one posted event and is that instruction's meaning on the state without it; with nothing
posted nothing happens. A received frame that decodes to `i` runs `i`. Two clauses are the model's choices: the event taken is
the head of one list of posted events (log entry 4, DESIGN CHOICE: R55 and R587 leave the order between producers open), and a
posted frame that no link interface can carry is refused (log entry 10, DESIGN CHOICE). -/
def Obligations.StepRunsThePostedInstruction : Prop :=
  (∀ (s : State) (i : Instr) (rest : List Instr), s.pending = i :: rest → i.wellFormed = true →
    step s = exec i { s with pending := rest }) ∧
  (∀ (s : State) (b : Bus) (c : CanFrame) (i : Instr) (rest : List Instr), s.pending = .frameReceived b c :: rest →
    c.data.length ≤ 8 → decode ⟨b, .received⟩ c = .ok i → step s = exec i { s with pending := rest }) ∧
  (∀ s : State, s.pending = [] → step s = .next s) ∧
  (∀ (s : State) (i : Instr) (rest : List Instr), s.pending = i :: rest → i.wellFormed = false →
    step s = .refused .illFormed)

/-- R37, R42, R43, R47, R52, R306, R425, R476: every step keeps the invariant. -/
def Obligations.StepKeepsTheInvariant : Prop :=
  ∀ s t : State, s.Inv → step s = .next t → t.Inv

/-- R95, R261: from a state that meets the invariant every instruction has a next state: no primitive is ever
called outside its range, and no instruction is refused. -/
def Obligations.NoInstructionStops : Prop :=
  ∀ (s : State) (i : Instr), s.Inv → ∃ t, exec i s = .next t

/-- R577, R307: every step only appends to the host port; a live transfer gets exactly one terminal event in the step that
removes it and none while it stays, unless CanBusSwitch or Stop abandons it, with none. -/
def Obligations.OneTerminalEvent : Prop :=
  ∀ (s t : State) (i : Instr), exec i s = .next t →
    ∃ ev, t.out = s.out ++ ev ∧
      ∀ k, s.live k = true →
        if abandons i = true ∧ s.running = true then t.live k = false ∧ endings k ev = 0
        else endings k ev = if t.live k then 0 else 1

/-- R590, R591, with R298 and R299: but for Stop and CanBusSwitch, a step leaves every record as it was except the one its
instruction is correlated to, `touches i`: the target of a confirmed frame, the sender of a received one, the operands of a
command or of a timer fire, none for the auxiliary frames and the accessors. But for Start it leaves the address, the timeout,
the run state, the active bus and the drivers' states as they were (R31 to R34, R36). That it leaves the posted events and the
parameters as they were is the model's choice, log entries 4 and 3 (DESIGN CHOICE). -/
def Obligations.AStepTouchesOneRecord : Prop :=
  ∀ (s t : State) (i : Instr), exec i s = .next t → abandons i = false →
    (∀ k, touches i ≠ some k → SameRecord s t k) ∧ t.pending = s.pending ∧ t.params = s.params ∧
    ((∀ a ms cfg, i ≠ .start a ms cfg) →
      t.address = s.address ∧ t.timeoutMs = s.timeoutMs ∧ t.running = s.running ∧ t.activeBus = s.activeBus ∧
      t.nominal.state = s.nominal.state ∧ t.redundant.state = s.redundant.state)
end

