-- ==== Sys2Proof/Laws/Bitmap.lean ====
section
/-! SUPPORT. The bitmap utilities bit by bit (R260 to R271) and the buffer primitives (R95): what each gives inside its
precondition. -/

namespace Sys2Proof.Machine

/-! ### One bit -/

@[simp] theorem withBitSet_length (b : List Byte) (k : Nat) : (withBitSet b k).length = b.length := by
  simp [withBitSet]
@[simp] theorem withBitClear_length (b : List Byte) (k : Nat) : (withBitClear b k).length = b.length := by
  simp [withBitClear]

theorem one_shift_getLsbD (j i : Nat) (hj : j < 8) : ((1#8) <<< j).getLsbD i = decide (i = j) := by
  rw [BitVec.getLsbD_shiftLeft]
  by_cases h : i = j
  · subst h; simp [hj]
  · by_cases h2 : i < j
    · simp [h2, h]
    · have : 1 ≤ i - j := by omega
      have h3 : (1#8).getLsbD (i - j) = false := by
        rw [BitVec.getLsbD_one]; simp; omega
      simp [h3, h]

theorem bitAt_withBitSet (b : List Byte) (k m : Nat) :
    bitAt (withBitSet b k) m = (bitAt b m || (decide (m = k) && decide (k < 8 * b.length))) := by
  unfold bitAt withBitSet
  rw [List.getD_eq_getElem?_getD, List.getD_eq_getElem?_getD, List.getElem?_modify]
  by_cases hq : k / 8 = m / 8
  · simp only [hq, if_true]
    by_cases hlen : m / 8 < b.length
    · rw [List.getElem?_eq_getElem hlen]
      simp only [Option.map_eq_map, Option.map_some, Option.getD_some, BitVec.getLsbD_or]
      rw [one_shift_getLsbD _ _ (by omega)]
      congr 1
      have h1 : k < 8 * b.length := by omega
      have h2 : (m % 8 = k % 8) ↔ m = k := by omega
      simp [h1, h2]
    · rw [List.getElem?_eq_none (by omega)]
      have h1 : ¬ k < 8 * b.length := by omega
      simp [h1]
  · simp only [hq, if_false]
    have h2 : ¬ m = k := by rintro rfl; exact hq rfl
    cases b[m / 8]? <;> simp [h2]

theorem bitAt_withBitClear (b : List Byte) (k m : Nat) :
    bitAt (withBitClear b k) m = (bitAt b m && !decide (m = k)) := by
  unfold bitAt withBitClear
  rw [List.getD_eq_getElem?_getD, List.getD_eq_getElem?_getD, List.getElem?_modify]
  by_cases hq : k / 8 = m / 8
  · simp only [hq, if_true]
    by_cases hlen : m / 8 < b.length
    · rw [List.getElem?_eq_getElem hlen]
      simp only [Option.map_eq_map, Option.map_some, Option.getD_some, BitVec.getLsbD_and, BitVec.getLsbD_not]
      rw [one_shift_getLsbD _ _ (by omega)]
      have h2 : (m % 8 = k % 8) ↔ m = k := by omega
      have h3 : m % 8 < 8 := by omega
      simp [h2, h3]
    · rw [List.getElem?_eq_none (by omega)]
      simp
  · simp only [hq, if_false]
    have h2 : ¬ m = k := by rintro rfl; exact hq rfl
    cases b[m / 8]? <;> simp [h2]

theorem bitAt_ge {b : List Byte} {k : Nat} (h : 8 * b.length ≤ k) : bitAt b k = false := by
  unfold bitAt
  rw [List.getD_eq_getElem?_getD, List.getElem?_eq_none (by omega)]
  simp

@[simp] theorem bmZero_length (n : Nat) : (bmZero n).length = bmSize n := by simp [bmZero]

@[simp] theorem bitAt_bmZero (n k : Nat) : bitAt (bmZero n) k = false := by
  unfold bitAt bmZero
  rw [List.getD_eq_getElem?_getD, List.getElem?_replicate]
  split <;> simp

theorem bmSize_le (n : Nat) : n ≤ 8 * bmSize n := by unfold bmSize ceilDiv8; omega

/-! ### Folds -/

@[simp] theorem foldl_withBitSet_length (l : List Nat) (b : List Byte) : (l.foldl withBitSet b).length = b.length := by
  induction l generalizing b with
  | nil => rfl
  | cons x xs ih => simp [ih]

theorem bitAt_foldl_withBitSet (l : List Nat) (b : List Byte) (m : Nat) :
    bitAt (l.foldl withBitSet b) m = (bitAt b m || (decide (m ∈ l) && decide (m < 8 * b.length))) := by
  induction l generalizing b with
  | nil => simp
  | cons x xs ih =>
    rw [List.foldl_cons, ih, bitAt_withBitSet, withBitSet_length]
    by_cases h : m = x
    · subst h; cases bitAt b m <;> simp
    · simp [h]

/-! ### The utilities inside their preconditions -/

theorem setBit_ok {b : List Byte} {k : Nat} (h : k < 8 * b.length) : setBit b k = .ok (withBitSet b k) := if_pos h
theorem clearBit_ok {b : List Byte} {k : Nat} (h : k < 8 * b.length) : clearBit b k = .ok (withBitClear b k) := if_pos h
theorem isBitSet_ok {b : List Byte} {k : Nat} (h : k < 8 * b.length) : isBitSet b k = .ok (bitAt b k) := if_pos h

theorem allSet_ok {b : List Byte} {n : Nat} (h : n ≤ 8 * b.length) :
    allSet b n = .ok (decide (∀ k < n, bitAt b k = true)) := by
  simp only [allSet, inRange, if_pos h]
  congr 1; rw [Bool.eq_iff_iff]; simp

theorem allCleared_ok {b : List Byte} {n : Nat} (h : n ≤ 8 * b.length) :
    allCleared b n = .ok (decide (∀ k < n, bitAt b k = false)) := by
  simp only [allCleared, inRange, if_pos h]
  congr 1; rw [Bool.eq_iff_iff]; simp

theorem setFirstN_ok {b : List Byte} {n : Nat} (h : n ≤ 8 * b.length) :
    setFirstN b n = .ok ((List.range n).foldl withBitSet b) := if_pos h

/-- The two answers of `first_clear` (R269, R271 (e)). -/
theorem firstClear_cases {b : List Byte} {n : Nat} (h : n ≤ 8 * b.length) :
    (firstClear b n = .ok none ∧ ∀ k < n, bitAt b k = true) ∨
    (∃ k < n, firstClear b n = .ok (some k) ∧ bitAt b k = false ∧ ∀ j < k, bitAt b j = true) := by
  simp only [firstClear, inRange, if_pos h]
  cases hf : (List.range n).find? fun k => !bitAt b k with
  | none => left; simpa using hf
  | some k =>
    right
    obtain ⟨h1, h2⟩ := List.find?_range_eq_some.1 hf
    exact ⟨k, by simpa using h2.1, rfl, by simpa using h1, fun j hj => by simpa using h2.2 j hj⟩

theorem firstClear_none {b : List Byte} {n : Nat} (h : n ≤ 8 * b.length) (ha : ∀ k < n, bitAt b k = true) :
    firstClear b n = .ok none := by
  rcases firstClear_cases h with h | ⟨k, hk, -, hb, -⟩
  · exact h.1
  · simp [ha k hk] at hb

theorem firstClear_some {b : List Byte} {n k : Nat} (h : n ≤ 8 * b.length) (hk : k < n) (hb : bitAt b k = false)
    (hl : ∀ j < k, bitAt b j = true) : firstClear b n = .ok (some k) := by
  rcases firstClear_cases h with h | ⟨k', hk', he, hb', hl'⟩
  · simp [h.2 k hk] at hb
  · have : k' = k := by
      rcases lt_trichotomy k' k with h | h | h
      · simp [hl k' h] at hb'
      · exact h
      · simp [hl' k h] at hb
    subst this; exact he

/-! ### Validity -/

theorem isValid_iff {b : List Byte} {n : Nat} :
    isValid b n = true ↔ b.length = bmSize n ∧ ∀ k, n ≤ k → bitAt b k = false := by
  simp only [isValid, Bool.and_eq_true, beq_iff_eq, List.all_eq_true, List.mem_range, Bool.or_eq_true, decide_eq_true_eq,
    Bool.not_eq_true']
  constructor
  · rintro ⟨h1, h2⟩
    refine ⟨h1, fun k hk => ?_⟩
    by_cases hlen : k < 8 * b.length
    · rcases h2 k hlen with h | h
      · omega
      · exact h
    · exact bitAt_ge (by omega)
  · rintro ⟨h1, h2⟩
    exact ⟨h1, fun k _ => if h : k < n then .inl h else .inr (h2 k (by omega))⟩

theorem isValid_le {b : List Byte} {n : Nat} (h : isValid b n = true) : n ≤ 8 * b.length := by
  rw [(isValid_iff.1 h).1]; exact bmSize_le n

theorem isValid_withBitSet {b : List Byte} {n k : Nat} (h : isValid b n = true) (hk : k < n) :
    isValid (withBitSet b k) n = true := by
  obtain ⟨h1, h2⟩ := isValid_iff.1 h
  refine isValid_iff.2 ⟨by simpa using h1, fun m hm => ?_⟩
  rw [bitAt_withBitSet, h2 m hm]
  have : ¬ m = k := by omega
  simp [this]

theorem isValid_withBitClear {b : List Byte} {n k : Nat} (h : isValid b n = true) :
    isValid (withBitClear b k) n = true := by
  obtain ⟨h1, h2⟩ := isValid_iff.1 h
  exact isValid_iff.2 ⟨by simpa using h1, fun m hm => by rw [bitAt_withBitClear, h2 m hm]; rfl⟩

theorem isValid_bmZero (n : Nat) : isValid (bmZero n) n = true :=
  isValid_iff.2 ⟨bmZero_length n, fun k _ => bitAt_bmZero n k⟩

theorem isValid_setFirstN (n : Nat) : isValid ((List.range n).foldl withBitSet (bmZero n)) n = true := by
  refine isValid_iff.2 ⟨by simp, fun k hk => ?_⟩
  rw [bitAt_foldl_withBitSet]
  have : ¬ k < n := by omega
  simp [this]

/-! ### Buffers -/

theorem memRead_ok {buf : List Byte} {off n : Nat} (h : off + n ≤ buf.length) :
    memRead buf off n = .ok ((buf.drop off).take n) := if_pos h
theorem memWrite_ok {buf v : List Byte} {off : Nat} (h : off + v.length ≤ buf.length) :
    memWrite buf off v = .ok (buf.take off ++ v ++ buf.drop (off + v.length)) := if_pos h

end Sys2Proof.Machine
end

