-- ==== Sys2Proof/Laws/Codec.lean ====
section
/-! SUPPORT. The identifier and the command field as numbers: what `encodeId`, `ttCmd` and `blkCmd` build and what the
accessors read back (R160, R161, R165, R242). -/

namespace Sys2Proof

/-- The identifier as the sum of its shifted fields (R111). -/
theorem encodeId_toNat (a : Byte) (t : BitVec 3) (f : Byte) (c : Command) :
    (encodeId a t f c).toNat = a.toNat * 2 ^ 21 + t.toNat * 2 ^ 18 + f.toNat * 2 ^ 10 + c.toNat := by
  have ha := a.isLt; have ht := t.isLt; have hf := f.isLt; have hc := c.isLt
  simp only [encodeId, BitVec.toNat_or, BitVec.toNat_shiftLeft, BitVec.toNat_setWidth]
  have e1 : (a.toNat % 2 ^ 32) <<< 21 % 2 ^ 32 = a.toNat <<< 21 := by
    simp only [Nat.shiftLeft_eq]; omega
  have e2 : (t.toNat % 2 ^ 32) <<< 18 % 2 ^ 32 = t.toNat <<< 18 := by
    simp only [Nat.shiftLeft_eq]; omega
  have e3 : (f.toNat % 2 ^ 32) <<< 10 % 2 ^ 32 = f.toNat <<< 10 := by
    simp only [Nat.shiftLeft_eq]; omega
  have e4 : c.toNat % 2 ^ 32 = c.toNat := by omega
  rw [e1, e2, e3, e4, Nat.or_assoc, Nat.or_assoc]
  have hb : c.toNat < 2 ^ 10 := by omega
  rw [← Nat.shiftLeft_add_eq_or_of_lt hb]
  have hb2 : f.toNat <<< 10 + c.toNat < 2 ^ 18 := by simp only [Nat.shiftLeft_eq]; omega
  rw [← Nat.shiftLeft_add_eq_or_of_lt hb2]
  have hb3 : t.toNat <<< 18 + (f.toNat <<< 10 + c.toNat) < 2 ^ 21 := by simp only [Nat.shiftLeft_eq]; omega
  rw [← Nat.shiftLeft_add_eq_or_of_lt hb3]
  simp only [Nat.shiftLeft_eq]; omega

/-- Bits 31:29 of a built identifier are 0 (R110, R137). -/
theorem encodeId_lt (a : Byte) (t : BitVec 3) (f : Byte) (c : Command) : (encodeId a t f c).toNat < 2 ^ 29 := by
  have ha := a.isLt; have ht := t.isLt; have hf := f.isLt; have hc := c.isLt
  rw [encodeId_toNat]; omega

theorem idToAddress_toNat (i : Word32) : (idToAddress i).toNat = i.toNat / 2 ^ 21 % 2 ^ 8 := by
  simp [idToAddress, Nat.shiftRight_eq_div_pow]
theorem idTransferType_toNat (i : Word32) : (idTransferType i).toNat = i.toNat / 2 ^ 18 % 2 ^ 3 := by
  simp [idTransferType, Nat.shiftRight_eq_div_pow]
theorem idFromAddress_toNat (i : Word32) : (idFromAddress i).toNat = i.toNat / 2 ^ 10 % 2 ^ 8 := by
  simp [idFromAddress, Nat.shiftRight_eq_div_pow]
theorem idCommand_toNat (i : Word32) : (idCommand i).toNat = i.toNat % 2 ^ 10 := by
  simp [idCommand]

@[simp] theorem idToAddress_encodeId (a : Byte) (t : BitVec 3) (f : Byte) (c : Command) :
    idToAddress (encodeId a t f c) = a := by
  have ha := a.isLt; have ht := t.isLt; have hf := f.isLt; have hc := c.isLt
  apply BitVec.eq_of_toNat_eq; rw [idToAddress_toNat, encodeId_toNat]; omega
@[simp] theorem idTransferType_encodeId (a : Byte) (t : BitVec 3) (f : Byte) (c : Command) :
    idTransferType (encodeId a t f c) = t := by
  have ha := a.isLt; have ht := t.isLt; have hf := f.isLt; have hc := c.isLt
  apply BitVec.eq_of_toNat_eq; rw [idTransferType_toNat, encodeId_toNat]; omega
@[simp] theorem idFromAddress_encodeId (a : Byte) (t : BitVec 3) (f : Byte) (c : Command) :
    idFromAddress (encodeId a t f c) = f := by
  have ha := a.isLt; have ht := t.isLt; have hf := f.isLt; have hc := c.isLt
  apply BitVec.eq_of_toNat_eq; rw [idFromAddress_toNat, encodeId_toNat]; omega
@[simp] theorem idCommand_encodeId (a : Byte) (t : BitVec 3) (f : Byte) (c : Command) :
    idCommand (encodeId a t f c) = c := by
  have ha := a.isLt; have ht := t.isLt; have hf := f.isLt; have hc := c.isLt
  apply BitVec.eq_of_toNat_eq; rw [idCommand_toNat, encodeId_toNat]; omega

/-- A built frame carries its logical frame (R165 (b)). -/
@[simp] theorem frameFields_encodeFrame (f : LogicalFrame) : frameFields (encodeFrame f) = f := by
  cases f; simp [frameFields, encodeFrame]

@[simp] theorem decodeFrame_encodeFrame (f : LogicalFrame) : decodeFrame (encodeFrame f) = some f := by
  simp only [decodeFrame, frameFields_encodeFrame]; simp [encodeFrame]

/-! ### Command field -/

theorem ttCmd_toNat (ft : BitVec 2) (ch : Byte) : (ttCmd ft ch).toNat = ft.toNat * 2 ^ 8 + ch.toNat := by
  have hf := ft.isLt; have hc := ch.isLt
  simp only [ttCmd, BitVec.toNat_or, BitVec.toNat_shiftLeft, BitVec.toNat_setWidth]
  have e1 : (ft.toNat % 2 ^ 10) <<< 8 % 2 ^ 10 = ft.toNat <<< 8 := by simp only [Nat.shiftLeft_eq]; omega
  have e2 : ch.toNat % 2 ^ 10 = ch.toNat := by omega
  have hb : ch.toNat < 2 ^ 8 := by omega
  rw [e1, e2, ← Nat.shiftLeft_add_eq_or_of_lt hb, Nat.shiftLeft_eq]

theorem blkCmd_toNat (ft : BitVec 3) (d : Bool) (sn : Seq) :
    (blkCmd ft d sn).toNat = ft.toNat * 2 ^ 7 + d.toNat * 2 ^ 6 + sn.toNat := by
  have hf := ft.isLt; have hs := sn.isLt
  have hd : d.toNat < 2 := by cases d <;> decide
  simp only [blkCmd, BitVec.toNat_or, BitVec.toNat_shiftLeft, BitVec.toNat_setWidth, BitVec.toNat_ofBool]
  have e1 : (ft.toNat % 2 ^ 10) <<< 7 % 2 ^ 10 = ft.toNat <<< 7 := by simp only [Nat.shiftLeft_eq]; omega
  have e2 : (d.toNat % 2 ^ 10) <<< 6 % 2 ^ 10 = d.toNat <<< 6 := by simp only [Nat.shiftLeft_eq]; omega
  have e3 : sn.toNat % 2 ^ 10 = sn.toNat := by omega
  have hb : sn.toNat < 2 ^ 6 := by omega
  rw [e1, e2, e3, Nat.or_assoc, ← Nat.shiftLeft_add_eq_or_of_lt hb]
  have hb2 : d.toNat <<< 6 + sn.toNat < 2 ^ 7 := by simp only [Nat.shiftLeft_eq]; omega
  rw [← Nat.shiftLeft_add_eq_or_of_lt hb2]
  simp only [Nat.shiftLeft_eq]; omega

theorem ttFt_toNat (c : Command) : (ttFt c).toNat = c.toNat / 2 ^ 8 % 2 ^ 2 := by
  simp [ttFt, Nat.shiftRight_eq_div_pow]
theorem ttChannel_toNat (c : Command) : (ttChannel c).toNat = c.toNat % 2 ^ 8 := by simp [ttChannel]
theorem blkFt_toNat (c : Command) : (blkFt c).toNat = c.toNat / 2 ^ 7 % 2 ^ 3 := by
  simp [blkFt, Nat.shiftRight_eq_div_pow]
theorem blkSn_toNat (c : Command) : (blkSn c).toNat = c.toNat % 2 ^ 6 := by simp [blkSn]
theorem blkDone_toNat (c : Command) : (blkDone c).toNat = c.toNat / 2 ^ 6 % 2 := by
  simp [blkDone, BitVec.getLsbD, Nat.testBit, Nat.shiftRight_eq_div_pow]
  rcases Nat.mod_two_eq_zero_or_one (c.toNat / 64) with h | h <;> simp [h]

@[simp] theorem ttFt_ttCmd (ft : BitVec 2) (ch : Byte) : ttFt (ttCmd ft ch) = ft := by
  have hf := ft.isLt; have hc := ch.isLt
  apply BitVec.eq_of_toNat_eq; rw [ttFt_toNat, ttCmd_toNat]; omega
@[simp] theorem ttChannel_ttCmd (ft : BitVec 2) (ch : Byte) : ttChannel (ttCmd ft ch) = ch := by
  have hf := ft.isLt; have hc := ch.isLt
  apply BitVec.eq_of_toNat_eq; rw [ttChannel_toNat, ttCmd_toNat]; omega
@[simp] theorem ttChannel_unsCmd (ch : Byte) : ttChannel (unsCmd ch) = ch := by
  have hc := ch.isLt
  apply BitVec.eq_of_toNat_eq; rw [ttChannel_toNat]; simp [unsCmd]; omega
@[simp] theorem blkFt_blkCmd (ft : BitVec 3) (d : Bool) (sn : Seq) : blkFt (blkCmd ft d sn) = ft := by
  have hf := ft.isLt; have hs := sn.isLt
  have hd : d.toNat < 2 := by cases d <;> decide
  apply BitVec.eq_of_toNat_eq; rw [blkFt_toNat, blkCmd_toNat]; omega
@[simp] theorem blkSn_blkCmd (ft : BitVec 3) (d : Bool) (sn : Seq) : blkSn (blkCmd ft d sn) = sn := by
  have hf := ft.isLt; have hs := sn.isLt
  have hd : d.toNat < 2 := by cases d <;> decide
  apply BitVec.eq_of_toNat_eq; rw [blkSn_toNat, blkCmd_toNat]; omega
@[simp] theorem blkDone_blkCmd (ft : BitVec 3) (d : Bool) (sn : Seq) : blkDone (blkCmd ft d sn) = d := by
  have hf := ft.isLt; have hs := sn.isLt
  have hd : d.toNat < 2 := by cases d <;> decide
  have h := blkDone_toNat (blkCmd ft d sn)
  rw [blkCmd_toNat] at h
  have h2 : (blkDone (blkCmd ft d sn)).toNat = d.toNat := by omega
  revert h2; cases d <;> cases blkDone (blkCmd ft _ sn) <;> simp

/-! ### Codes -/

@[simp] theorem TransferType.ofBits_bits (t : TransferType) : TransferType.ofBits t.bits = t := by cases t <;> rfl
@[simp] theorem TtFrameType.ofBits_bits (t : TtFrameType) : TtFrameType.ofBits t.bits = t := by cases t <;> rfl
@[simp] theorem SbFrameType.ofBits_bits (t : SbFrameType) : SbFrameType.ofBits t.bits = t := by cases t <;> rfl
@[simp] theorem GbFrameType.ofBits_bits (t : GbFrameType) : GbFrameType.ofBits t.bits = t := by cases t <;> rfl

theorem TransferType.bits_ofBits (v : BitVec 3) : (TransferType.ofBits v).bits = v := by revert v; decide
theorem TtFrameType.bits_ofBits (v : BitVec 2) : (TtFrameType.ofBits v).bits = v := by revert v; decide
theorem SbFrameType.bits_ofBits (v : BitVec 3) : (SbFrameType.ofBits v).bits = v := by revert v; decide
theorem GbFrameType.bits_ofBits (v : BitVec 3) : (GbFrameType.ofBits v).bits = v := by revert v; decide

end Sys2Proof
end

