-- ==== Sys2Proof/Laws/State.lean ====
section
/-! SUPPORT. What each named update of the state leaves of each field, true by `rfl`, so that no proof unfolds a record
update. The frame an active driver takes is described by `afterSend_*`. -/

namespace Sys2Proof.Machine

variable (s : State)

/-! ### `emit` -/

@[simp] theorem emit_running (e : OutEvent) : (s.emit e).running = s.running := rfl
@[simp] theorem emit_address (e : OutEvent) : (s.emit e).address = s.address := rfl
@[simp] theorem emit_timeoutMs (e : OutEvent) : (s.emit e).timeoutMs = s.timeoutMs := rfl
@[simp] theorem emit_activeBus (e : OutEvent) : (s.emit e).activeBus = s.activeBus := rfl
@[simp] theorem emit_nominal (e : OutEvent) : (s.emit e).nominal = s.nominal := rfl
@[simp] theorem emit_redundant (e : OutEvent) : (s.emit e).redundant = s.redundant := rfl
@[simp] theorem emit_tc (e : OutEvent) : (s.emit e).tc = s.tc := rfl
@[simp] theorem emit_tm (e : OutEvent) : (s.emit e).tm = s.tm := rfl
@[simp] theorem emit_sb (e : OutEvent) : (s.emit e).sb = s.sb := rfl
@[simp] theorem emit_gb (e : OutEvent) : (s.emit e).gb = s.gb := rfl
@[simp] theorem emit_pending (e : OutEvent) : (s.emit e).pending = s.pending := rfl
@[simp] theorem emit_out (e : OutEvent) : (s.emit e).out = s.out ++ [.event e] := rfl
@[simp] theorem emit_params (e : OutEvent) : (s.emit e).params = s.params := rfl

/-! ### `give` -/

@[simp] theorem give_running (r : HostResult) : (s.give r).running = s.running := rfl
@[simp] theorem give_address (r : HostResult) : (s.give r).address = s.address := rfl
@[simp] theorem give_timeoutMs (r : HostResult) : (s.give r).timeoutMs = s.timeoutMs := rfl
@[simp] theorem give_activeBus (r : HostResult) : (s.give r).activeBus = s.activeBus := rfl
@[simp] theorem give_nominal (r : HostResult) : (s.give r).nominal = s.nominal := rfl
@[simp] theorem give_redundant (r : HostResult) : (s.give r).redundant = s.redundant := rfl
@[simp] theorem give_tc (r : HostResult) : (s.give r).tc = s.tc := rfl
@[simp] theorem give_tm (r : HostResult) : (s.give r).tm = s.tm := rfl
@[simp] theorem give_sb (r : HostResult) : (s.give r).sb = s.sb := rfl
@[simp] theorem give_gb (r : HostResult) : (s.give r).gb = s.gb := rfl
@[simp] theorem give_pending (r : HostResult) : (s.give r).pending = s.pending := rfl
@[simp] theorem give_out (r : HostResult) : (s.give r).out = s.out ++ [.result r] := rfl
@[simp] theorem give_params (r : HostResult) : (s.give r).params = s.params := rfl

/-! ### `giveBool` -/

@[simp] theorem giveBool_running (b : Bool) : (s.giveBool b).running = s.running := rfl
@[simp] theorem giveBool_address (b : Bool) : (s.giveBool b).address = s.address := rfl
@[simp] theorem giveBool_timeoutMs (b : Bool) : (s.giveBool b).timeoutMs = s.timeoutMs := rfl
@[simp] theorem giveBool_activeBus (b : Bool) : (s.giveBool b).activeBus = s.activeBus := rfl
@[simp] theorem giveBool_nominal (b : Bool) : (s.giveBool b).nominal = s.nominal := rfl
@[simp] theorem giveBool_redundant (b : Bool) : (s.giveBool b).redundant = s.redundant := rfl
@[simp] theorem giveBool_tc (b : Bool) : (s.giveBool b).tc = s.tc := rfl
@[simp] theorem giveBool_tm (b : Bool) : (s.giveBool b).tm = s.tm := rfl
@[simp] theorem giveBool_sb (b : Bool) : (s.giveBool b).sb = s.sb := rfl
@[simp] theorem giveBool_gb (b : Bool) : (s.giveBool b).gb = s.gb := rfl
@[simp] theorem giveBool_pending (b : Bool) : (s.giveBool b).pending = s.pending := rfl
@[simp] theorem giveBool_out (b : Bool) : (s.giveBool b).out = s.out ++ [.result (.bool b)] := rfl
@[simp] theorem giveBool_params (b : Bool) : (s.giveBool b).params = s.params := rfl

/-! ### `putTc` -/

@[simp] theorem putTc_running (r : TcRec) : (s.putTc r).running = s.running := rfl
@[simp] theorem putTc_address (r : TcRec) : (s.putTc r).address = s.address := rfl
@[simp] theorem putTc_timeoutMs (r : TcRec) : (s.putTc r).timeoutMs = s.timeoutMs := rfl
@[simp] theorem putTc_activeBus (r : TcRec) : (s.putTc r).activeBus = s.activeBus := rfl
@[simp] theorem putTc_nominal (r : TcRec) : (s.putTc r).nominal = s.nominal := rfl
@[simp] theorem putTc_redundant (r : TcRec) : (s.putTc r).redundant = s.redundant := rfl
@[simp] theorem putTc_tc (r : TcRec) : (s.putTc r).tc = regPut TcRec.key r s.tc := rfl
@[simp] theorem putTc_tm (r : TcRec) : (s.putTc r).tm = s.tm := rfl
@[simp] theorem putTc_sb (r : TcRec) : (s.putTc r).sb = s.sb := rfl
@[simp] theorem putTc_gb (r : TcRec) : (s.putTc r).gb = s.gb := rfl
@[simp] theorem putTc_pending (r : TcRec) : (s.putTc r).pending = s.pending := rfl
@[simp] theorem putTc_out (r : TcRec) : (s.putTc r).out = s.out := rfl
@[simp] theorem putTc_params (r : TcRec) : (s.putTc r).params = s.params := rfl

/-! ### `putTm` -/

@[simp] theorem putTm_running (r : TmRec) : (s.putTm r).running = s.running := rfl
@[simp] theorem putTm_address (r : TmRec) : (s.putTm r).address = s.address := rfl
@[simp] theorem putTm_timeoutMs (r : TmRec) : (s.putTm r).timeoutMs = s.timeoutMs := rfl
@[simp] theorem putTm_activeBus (r : TmRec) : (s.putTm r).activeBus = s.activeBus := rfl
@[simp] theorem putTm_nominal (r : TmRec) : (s.putTm r).nominal = s.nominal := rfl
@[simp] theorem putTm_redundant (r : TmRec) : (s.putTm r).redundant = s.redundant := rfl
@[simp] theorem putTm_tc (r : TmRec) : (s.putTm r).tc = s.tc := rfl
@[simp] theorem putTm_tm (r : TmRec) : (s.putTm r).tm = regPut TmRec.key r s.tm := rfl
@[simp] theorem putTm_sb (r : TmRec) : (s.putTm r).sb = s.sb := rfl
@[simp] theorem putTm_gb (r : TmRec) : (s.putTm r).gb = s.gb := rfl
@[simp] theorem putTm_pending (r : TmRec) : (s.putTm r).pending = s.pending := rfl
@[simp] theorem putTm_out (r : TmRec) : (s.putTm r).out = s.out := rfl
@[simp] theorem putTm_params (r : TmRec) : (s.putTm r).params = s.params := rfl

/-! ### `putSb` -/

@[simp] theorem putSb_running (r : SbRec) : (s.putSb r).running = s.running := rfl
@[simp] theorem putSb_address (r : SbRec) : (s.putSb r).address = s.address := rfl
@[simp] theorem putSb_timeoutMs (r : SbRec) : (s.putSb r).timeoutMs = s.timeoutMs := rfl
@[simp] theorem putSb_activeBus (r : SbRec) : (s.putSb r).activeBus = s.activeBus := rfl
@[simp] theorem putSb_nominal (r : SbRec) : (s.putSb r).nominal = s.nominal := rfl
@[simp] theorem putSb_redundant (r : SbRec) : (s.putSb r).redundant = s.redundant := rfl
@[simp] theorem putSb_tc (r : SbRec) : (s.putSb r).tc = s.tc := rfl
@[simp] theorem putSb_tm (r : SbRec) : (s.putSb r).tm = s.tm := rfl
@[simp] theorem putSb_sb (r : SbRec) : (s.putSb r).sb = regPut SbRec.key r s.sb := rfl
@[simp] theorem putSb_gb (r : SbRec) : (s.putSb r).gb = s.gb := rfl
@[simp] theorem putSb_pending (r : SbRec) : (s.putSb r).pending = s.pending := rfl
@[simp] theorem putSb_out (r : SbRec) : (s.putSb r).out = s.out := rfl
@[simp] theorem putSb_params (r : SbRec) : (s.putSb r).params = s.params := rfl

/-! ### `putGb` -/

@[simp] theorem putGb_running (r : GbRec) : (s.putGb r).running = s.running := rfl
@[simp] theorem putGb_address (r : GbRec) : (s.putGb r).address = s.address := rfl
@[simp] theorem putGb_timeoutMs (r : GbRec) : (s.putGb r).timeoutMs = s.timeoutMs := rfl
@[simp] theorem putGb_activeBus (r : GbRec) : (s.putGb r).activeBus = s.activeBus := rfl
@[simp] theorem putGb_nominal (r : GbRec) : (s.putGb r).nominal = s.nominal := rfl
@[simp] theorem putGb_redundant (r : GbRec) : (s.putGb r).redundant = s.redundant := rfl
@[simp] theorem putGb_tc (r : GbRec) : (s.putGb r).tc = s.tc := rfl
@[simp] theorem putGb_tm (r : GbRec) : (s.putGb r).tm = s.tm := rfl
@[simp] theorem putGb_sb (r : GbRec) : (s.putGb r).sb = s.sb := rfl
@[simp] theorem putGb_gb (r : GbRec) : (s.putGb r).gb = regPut GbRec.key r s.gb := rfl
@[simp] theorem putGb_pending (r : GbRec) : (s.putGb r).pending = s.pending := rfl
@[simp] theorem putGb_out (r : GbRec) : (s.putGb r).out = s.out := rfl
@[simp] theorem putGb_params (r : GbRec) : (s.putGb r).params = s.params := rfl

/-! ### `removeTransfer` of a TcRec -/

@[simp] theorem remove_tc_running (a ch : Byte) : (s.removeTransfer (.tc a ch)).running = s.running := rfl
@[simp] theorem remove_tc_address (a ch : Byte) : (s.removeTransfer (.tc a ch)).address = s.address := rfl
@[simp] theorem remove_tc_timeoutMs (a ch : Byte) : (s.removeTransfer (.tc a ch)).timeoutMs = s.timeoutMs := rfl
@[simp] theorem remove_tc_activeBus (a ch : Byte) : (s.removeTransfer (.tc a ch)).activeBus = s.activeBus := rfl
@[simp] theorem remove_tc_nominal (a ch : Byte) : (s.removeTransfer (.tc a ch)).nominal = s.nominal := rfl
@[simp] theorem remove_tc_redundant (a ch : Byte) : (s.removeTransfer (.tc a ch)).redundant = s.redundant := rfl
@[simp] theorem remove_tc_tc (a ch : Byte) : (s.removeTransfer (.tc a ch)).tc = regRemove TcRec.key (ttKey a ch) s.tc := rfl
@[simp] theorem remove_tc_tm (a ch : Byte) : (s.removeTransfer (.tc a ch)).tm = s.tm := rfl
@[simp] theorem remove_tc_sb (a ch : Byte) : (s.removeTransfer (.tc a ch)).sb = s.sb := rfl
@[simp] theorem remove_tc_gb (a ch : Byte) : (s.removeTransfer (.tc a ch)).gb = s.gb := rfl
@[simp] theorem remove_tc_pending (a ch : Byte) : (s.removeTransfer (.tc a ch)).pending = s.pending := rfl
@[simp] theorem remove_tc_out (a ch : Byte) : (s.removeTransfer (.tc a ch)).out = s.out := rfl
@[simp] theorem remove_tc_params (a ch : Byte) : (s.removeTransfer (.tc a ch)).params = s.params := rfl

/-! ### `removeTransfer` of a TmRec -/

@[simp] theorem remove_tm_running (a ch : Byte) : (s.removeTransfer (.tm a ch)).running = s.running := rfl
@[simp] theorem remove_tm_address (a ch : Byte) : (s.removeTransfer (.tm a ch)).address = s.address := rfl
@[simp] theorem remove_tm_timeoutMs (a ch : Byte) : (s.removeTransfer (.tm a ch)).timeoutMs = s.timeoutMs := rfl
@[simp] theorem remove_tm_activeBus (a ch : Byte) : (s.removeTransfer (.tm a ch)).activeBus = s.activeBus := rfl
@[simp] theorem remove_tm_nominal (a ch : Byte) : (s.removeTransfer (.tm a ch)).nominal = s.nominal := rfl
@[simp] theorem remove_tm_redundant (a ch : Byte) : (s.removeTransfer (.tm a ch)).redundant = s.redundant := rfl
@[simp] theorem remove_tm_tc (a ch : Byte) : (s.removeTransfer (.tm a ch)).tc = s.tc := rfl
@[simp] theorem remove_tm_tm (a ch : Byte) : (s.removeTransfer (.tm a ch)).tm = regRemove TmRec.key (ttKey a ch) s.tm := rfl
@[simp] theorem remove_tm_sb (a ch : Byte) : (s.removeTransfer (.tm a ch)).sb = s.sb := rfl
@[simp] theorem remove_tm_gb (a ch : Byte) : (s.removeTransfer (.tm a ch)).gb = s.gb := rfl
@[simp] theorem remove_tm_pending (a ch : Byte) : (s.removeTransfer (.tm a ch)).pending = s.pending := rfl
@[simp] theorem remove_tm_out (a ch : Byte) : (s.removeTransfer (.tm a ch)).out = s.out := rfl
@[simp] theorem remove_tm_params (a ch : Byte) : (s.removeTransfer (.tm a ch)).params = s.params := rfl

/-! ### `removeTransfer` of a SbRec -/

@[simp] theorem remove_sb_running (a : Byte) : (s.removeTransfer (.sb a)).running = s.running := rfl
@[simp] theorem remove_sb_address (a : Byte) : (s.removeTransfer (.sb a)).address = s.address := rfl
@[simp] theorem remove_sb_timeoutMs (a : Byte) : (s.removeTransfer (.sb a)).timeoutMs = s.timeoutMs := rfl
@[simp] theorem remove_sb_activeBus (a : Byte) : (s.removeTransfer (.sb a)).activeBus = s.activeBus := rfl
@[simp] theorem remove_sb_nominal (a : Byte) : (s.removeTransfer (.sb a)).nominal = s.nominal := rfl
@[simp] theorem remove_sb_redundant (a : Byte) : (s.removeTransfer (.sb a)).redundant = s.redundant := rfl
@[simp] theorem remove_sb_tc (a : Byte) : (s.removeTransfer (.sb a)).tc = s.tc := rfl
@[simp] theorem remove_sb_tm (a : Byte) : (s.removeTransfer (.sb a)).tm = s.tm := rfl
@[simp] theorem remove_sb_sb (a : Byte) : (s.removeTransfer (.sb a)).sb = regRemove SbRec.key (blkKey a) s.sb := rfl
@[simp] theorem remove_sb_gb (a : Byte) : (s.removeTransfer (.sb a)).gb = s.gb := rfl
@[simp] theorem remove_sb_pending (a : Byte) : (s.removeTransfer (.sb a)).pending = s.pending := rfl
@[simp] theorem remove_sb_out (a : Byte) : (s.removeTransfer (.sb a)).out = s.out := rfl
@[simp] theorem remove_sb_params (a : Byte) : (s.removeTransfer (.sb a)).params = s.params := rfl

/-! ### `removeTransfer` of a GbRec -/

@[simp] theorem remove_gb_running (a : Byte) : (s.removeTransfer (.gb a)).running = s.running := rfl
@[simp] theorem remove_gb_address (a : Byte) : (s.removeTransfer (.gb a)).address = s.address := rfl
@[simp] theorem remove_gb_timeoutMs (a : Byte) : (s.removeTransfer (.gb a)).timeoutMs = s.timeoutMs := rfl
@[simp] theorem remove_gb_activeBus (a : Byte) : (s.removeTransfer (.gb a)).activeBus = s.activeBus := rfl
@[simp] theorem remove_gb_nominal (a : Byte) : (s.removeTransfer (.gb a)).nominal = s.nominal := rfl
@[simp] theorem remove_gb_redundant (a : Byte) : (s.removeTransfer (.gb a)).redundant = s.redundant := rfl
@[simp] theorem remove_gb_tc (a : Byte) : (s.removeTransfer (.gb a)).tc = s.tc := rfl
@[simp] theorem remove_gb_tm (a : Byte) : (s.removeTransfer (.gb a)).tm = s.tm := rfl
@[simp] theorem remove_gb_sb (a : Byte) : (s.removeTransfer (.gb a)).sb = s.sb := rfl
@[simp] theorem remove_gb_gb (a : Byte) : (s.removeTransfer (.gb a)).gb = regRemove GbRec.key (blkKey a) s.gb := rfl
@[simp] theorem remove_gb_pending (a : Byte) : (s.removeTransfer (.gb a)).pending = s.pending := rfl
@[simp] theorem remove_gb_out (a : Byte) : (s.removeTransfer (.gb a)).out = s.out := rfl
@[simp] theorem remove_gb_params (a : Byte) : (s.removeTransfer (.gb a)).params = s.params := rfl

/-! ### `clearRegistries` -/

@[simp] theorem clearRegistries_running : s.clearRegistries.running = s.running := rfl
@[simp] theorem clearRegistries_address : s.clearRegistries.address = s.address := rfl
@[simp] theorem clearRegistries_timeoutMs : s.clearRegistries.timeoutMs = s.timeoutMs := rfl
@[simp] theorem clearRegistries_activeBus : s.clearRegistries.activeBus = s.activeBus := rfl
@[simp] theorem clearRegistries_nominal : s.clearRegistries.nominal = s.nominal := rfl
@[simp] theorem clearRegistries_redundant : s.clearRegistries.redundant = s.redundant := rfl
@[simp] theorem clearRegistries_tc : s.clearRegistries.tc = [] := rfl
@[simp] theorem clearRegistries_tm : s.clearRegistries.tm = [] := rfl
@[simp] theorem clearRegistries_sb : s.clearRegistries.sb = [] := rfl
@[simp] theorem clearRegistries_gb : s.clearRegistries.gb = [] := rfl
@[simp] theorem clearRegistries_pending : s.clearRegistries.pending = s.pending := rfl
@[simp] theorem clearRegistries_out : s.clearRegistries.out = s.out := rfl
@[simp] theorem clearRegistries_params : s.clearRegistries.params = s.params := rfl

/-! ### `setLink` -/

@[simp] theorem setLink_running (b : Bus) (l : Link) : (s.setLink b l).running = s.running := by cases b <;> rfl
@[simp] theorem setLink_address (b : Bus) (l : Link) : (s.setLink b l).address = s.address := by cases b <;> rfl
@[simp] theorem setLink_timeoutMs (b : Bus) (l : Link) : (s.setLink b l).timeoutMs = s.timeoutMs := by cases b <;> rfl
@[simp] theorem setLink_activeBus (b : Bus) (l : Link) : (s.setLink b l).activeBus = s.activeBus := by cases b <;> rfl
@[simp] theorem setLink_tc (b : Bus) (l : Link) : (s.setLink b l).tc = s.tc := by cases b <;> rfl
@[simp] theorem setLink_tm (b : Bus) (l : Link) : (s.setLink b l).tm = s.tm := by cases b <;> rfl
@[simp] theorem setLink_sb (b : Bus) (l : Link) : (s.setLink b l).sb = s.sb := by cases b <;> rfl
@[simp] theorem setLink_gb (b : Bus) (l : Link) : (s.setLink b l).gb = s.gb := by cases b <;> rfl
@[simp] theorem setLink_pending (b : Bus) (l : Link) : (s.setLink b l).pending = s.pending := by cases b <;> rfl
@[simp] theorem setLink_out (b : Bus) (l : Link) : (s.setLink b l).out = s.out := by cases b <;> rfl
@[simp] theorem setLink_params (b : Bus) (l : Link) : (s.setLink b l).params = s.params := by cases b <;> rfl

/-! ### `settle` -/

@[simp] theorem settle_running (b : Bus) (c : CanFrame) : (s.settle b c).running = s.running := by cases b <;> rfl
@[simp] theorem settle_address (b : Bus) (c : CanFrame) : (s.settle b c).address = s.address := by cases b <;> rfl
@[simp] theorem settle_timeoutMs (b : Bus) (c : CanFrame) : (s.settle b c).timeoutMs = s.timeoutMs := by cases b <;> rfl
@[simp] theorem settle_activeBus (b : Bus) (c : CanFrame) : (s.settle b c).activeBus = s.activeBus := by cases b <;> rfl
@[simp] theorem settle_tc (b : Bus) (c : CanFrame) : (s.settle b c).tc = s.tc := by cases b <;> rfl
@[simp] theorem settle_tm (b : Bus) (c : CanFrame) : (s.settle b c).tm = s.tm := by cases b <;> rfl
@[simp] theorem settle_sb (b : Bus) (c : CanFrame) : (s.settle b c).sb = s.sb := by cases b <;> rfl
@[simp] theorem settle_gb (b : Bus) (c : CanFrame) : (s.settle b c).gb = s.gb := by cases b <;> rfl
@[simp] theorem settle_pending (b : Bus) (c : CanFrame) : (s.settle b c).pending = s.pending := by cases b <;> rfl
@[simp] theorem settle_out (b : Bus) (c : CanFrame) : (s.settle b c).out = s.out := by cases b <;> rfl
@[simp] theorem settle_params (b : Bus) (c : CanFrame) : (s.settle b c).params = s.params := by cases b <;> rfl

/-! ### `afterSend` -/

@[simp] theorem afterSend_running (f : LogicalFrame) : (s.afterSend f).running = s.running := setLink_running s _ _
@[simp] theorem afterSend_address (f : LogicalFrame) : (s.afterSend f).address = s.address := setLink_address s _ _
@[simp] theorem afterSend_timeoutMs (f : LogicalFrame) : (s.afterSend f).timeoutMs = s.timeoutMs := setLink_timeoutMs s _ _
@[simp] theorem afterSend_activeBus (f : LogicalFrame) : (s.afterSend f).activeBus = s.activeBus := setLink_activeBus s _ _
@[simp] theorem afterSend_tc (f : LogicalFrame) : (s.afterSend f).tc = s.tc := setLink_tc s _ _
@[simp] theorem afterSend_tm (f : LogicalFrame) : (s.afterSend f).tm = s.tm := setLink_tm s _ _
@[simp] theorem afterSend_sb (f : LogicalFrame) : (s.afterSend f).sb = s.sb := setLink_sb s _ _
@[simp] theorem afterSend_gb (f : LogicalFrame) : (s.afterSend f).gb = s.gb := setLink_gb s _ _
@[simp] theorem afterSend_pending (f : LogicalFrame) : (s.afterSend f).pending = s.pending := setLink_pending s _ _
@[simp] theorem afterSend_out (f : LogicalFrame) : (s.afterSend f).out = s.out := setLink_out s _ _
@[simp] theorem afterSend_params (f : LogicalFrame) : (s.afterSend f).params = s.params := setLink_params s _ _

/-! ### `post` -/

@[simp] theorem post_running (i : Instr) : (s.post i).running = s.running := rfl
@[simp] theorem post_address (i : Instr) : (s.post i).address = s.address := rfl
@[simp] theorem post_timeoutMs (i : Instr) : (s.post i).timeoutMs = s.timeoutMs := rfl
@[simp] theorem post_activeBus (i : Instr) : (s.post i).activeBus = s.activeBus := rfl
@[simp] theorem post_nominal (i : Instr) : (s.post i).nominal = s.nominal := rfl
@[simp] theorem post_redundant (i : Instr) : (s.post i).redundant = s.redundant := rfl
@[simp] theorem post_tc (i : Instr) : (s.post i).tc = s.tc := rfl
@[simp] theorem post_tm (i : Instr) : (s.post i).tm = s.tm := rfl
@[simp] theorem post_sb (i : Instr) : (s.post i).sb = s.sb := rfl
@[simp] theorem post_gb (i : Instr) : (s.post i).gb = s.gb := rfl
@[simp] theorem post_pending (i : Instr) : (s.post i).pending = i :: s.pending := rfl
@[simp] theorem post_out (i : Instr) : (s.post i).out = s.out := rfl
@[simp] theorem post_params (i : Instr) : (s.post i).params = s.params := rfl

end Sys2Proof.Machine
end

