-- ==== Sys2Proof/Laws/Registry.lean ====
section
/-! SUPPORT. A registry is a finite map (R37, R305): what a lookup finds after an insertion or a removal, and that both keep
the canonical form. The laws of lookups hold for every list, canonical or not. -/

namespace Sys2Proof.Machine

section registry

variable {ρ : Type} {key : ρ → Nat}

/-! ### Lookups -/

@[simp] theorem regLookup_nil (k : Nat) : regLookup key k [] = none := rfl

theorem regLookup_key {k : Nat} {rs : List ρ} {r : ρ} (h : regLookup key k rs = some r) : key r = k := by
  simpa using List.find?_some h

theorem regLookup_mem {k : Nat} {rs : List ρ} {r : ρ} (h : regLookup key k rs = some r) : r ∈ rs :=
  List.mem_of_find?_eq_some h

theorem regLookup_put (r : ρ) (k : Nat) (rs : List ρ) :
    regLookup key k (regPut key r rs) = if key r = k then some r else regLookup key k rs := by
  induction rs with
  | nil => by_cases h : key r = k <;> simp [regPut, regLookup, h]
  | cons x xs ih =>
    simp only [regLookup] at ih
    by_cases hk : key r = k
    · simp only [hk, if_true] at ih
      simp only [regPut, regLookup]
      split
      · simp [hk]
      · split
        · simp [hk]
        · have : ¬ key x = k := by omega
          simp [this, ih]
    · simp only [hk, if_false] at ih
      simp only [regPut, regLookup, hk, if_false]
      split
      · simp [hk]
      · split
        · rename_i h; simp [hk, h ▸ hk]
        · simp [List.find?_cons, ih]

theorem regLookup_remove (k j : Nat) (rs : List ρ) :
    regLookup key k (regRemove key j rs) = if j = k then none else regLookup key k rs := by
  unfold regLookup regRemove
  rw [List.find?_filter]
  split
  · subst_vars; simp
  · congr 1; funext x
    by_cases h : key x = k <;> simp [h]
    omega

/-! ### Canonical form -/

theorem mem_regPut {r x : ρ} {rs : List ρ} (h : x ∈ regPut key r rs) : x = r ∨ x ∈ rs := by
  induction rs with
  | nil => simpa [regPut] using h
  | cons y ys ih =>
    simp only [regPut] at h
    split at h
    · simpa using h
    · split at h
      · rcases List.mem_cons.1 h with h | h <;> simp [h]
      · rcases List.mem_cons.1 h with h | h
        · simp [h]
        · rcases ih h with h | h <;> simp [h]

theorem mem_regRemove {k : Nat} {x : ρ} {rs : List ρ} (h : x ∈ regRemove key k rs) : x ∈ rs ∧ key x ≠ k := by
  simpa [regRemove] using h

theorem canonical_regPut {r : ρ} {rs : List ρ} (h : Canonical key rs) : Canonical key (regPut key r rs) := by
  induction rs with
  | nil => simp [regPut, Canonical]
  | cons x xs ih =>
    obtain ⟨hx, hxs⟩ := List.pairwise_cons.1 h
    simp only [regPut]
    split
    · rename_i hlt
      refine List.pairwise_cons.2 ⟨fun y hy => ?_, h⟩
      rcases List.mem_cons.1 hy with rfl | hy
      · exact hlt
      · exact lt_trans hlt (hx y hy)
    · split
      · rename_i he
        exact List.pairwise_cons.2 ⟨fun y hy => he ▸ hx y hy, hxs⟩
      · refine List.pairwise_cons.2 ⟨fun y hy => ?_, ih hxs⟩
        rcases mem_regPut hy with rfl | hy
        · omega
        · exact hx y hy

theorem canonical_regRemove {k : Nat} {rs : List ρ} (h : Canonical key rs) : Canonical key (regRemove key k rs) :=
  List.Pairwise.filter _ h

/-- In canonical form a member is what its key finds. -/
theorem regLookup_of_mem {r : ρ} {rs : List ρ} (h : Canonical key rs) (hr : r ∈ rs) :
    regLookup key (key r) rs = some r := by
  induction rs with
  | nil => simp at hr
  | cons x xs ih =>
    obtain ⟨hx, hxs⟩ := List.pairwise_cons.1 h
    rcases List.mem_cons.1 hr with rfl | hr
    · simp [regLookup]
    · have := hx r hr
      have hne : ¬ key x = key r := by omega
      simpa [regLookup, hne] using ih hxs hr

end registry

/-! ### Keys -/

@[simp] theorem ttKey_inj {a ch a' ch' : Byte} : ttKey a ch = ttKey a' ch' ↔ a = a' ∧ ch = ch' := by
  unfold ttKey
  constructor
  · intro h
    have := ch.isLt; have := ch'.isLt
    exact ⟨BitVec.eq_of_toNat_eq (by omega), BitVec.eq_of_toNat_eq (by omega)⟩
  · rintro ⟨rfl, rfl⟩; rfl

@[simp] theorem blkKey_inj {a a' : Byte} : blkKey a = blkKey a' ↔ a = a' :=
  ⟨fun h => BitVec.eq_of_toNat_eq h, fun h => h ▸ rfl⟩

/-! ### The four registries -/

variable {s : State}

theorem lookupTc_key {a ch : Byte} {r : TcRec} (h : s.lookupTc a ch = some r) : r.address = a ∧ r.channel = ch :=
  have e : r.key = _ := regLookup_key h
  ttKey_inj.1 e
theorem lookupTm_key {a ch : Byte} {r : TmRec} (h : s.lookupTm a ch = some r) : r.address = a ∧ r.channel = ch :=
  have e : r.key = _ := regLookup_key h
  ttKey_inj.1 e
theorem lookupSb_key {a : Byte} {r : SbRec} (h : s.lookupSb a = some r) : r.address = a :=
  have e : r.key = _ := regLookup_key h
  blkKey_inj.1 e
theorem lookupGb_key {a : Byte} {r : GbRec} (h : s.lookupGb a = some r) : r.address = a :=
  have e : r.key = _ := regLookup_key h
  blkKey_inj.1 e

@[simp] theorem lookupTc_put (r : TcRec) (a ch : Byte) :
    (s.putTc r).lookupTc a ch = if r.address = a ∧ r.channel = ch then some r else s.lookupTc a ch := by
  simp [State.lookupTc, regLookup_put, TcRec.key]
@[simp] theorem lookupTm_put (r : TmRec) (a ch : Byte) :
    (s.putTm r).lookupTm a ch = if r.address = a ∧ r.channel = ch then some r else s.lookupTm a ch := by
  simp [State.lookupTm, regLookup_put, TmRec.key]
@[simp] theorem lookupSb_put (r : SbRec) (a : Byte) :
    (s.putSb r).lookupSb a = if r.address = a then some r else s.lookupSb a := by
  simp [State.lookupSb, regLookup_put, SbRec.key]
@[simp] theorem lookupGb_put (r : GbRec) (a : Byte) :
    (s.putGb r).lookupGb a = if r.address = a then some r else s.lookupGb a := by
  simp [State.lookupGb, regLookup_put, GbRec.key]

@[simp] theorem lookupTc_remove (a ch a' ch' : Byte) :
    (s.removeTransfer (.tc a ch)).lookupTc a' ch' = if a = a' ∧ ch = ch' then none else s.lookupTc a' ch' := by
  simp [State.lookupTc, regLookup_remove]
@[simp] theorem lookupTm_remove (a ch a' ch' : Byte) :
    (s.removeTransfer (.tm a ch)).lookupTm a' ch' = if a = a' ∧ ch = ch' then none else s.lookupTm a' ch' := by
  simp [State.lookupTm, regLookup_remove]
@[simp] theorem lookupSb_remove (a a' : Byte) :
    (s.removeTransfer (.sb a)).lookupSb a' = if a = a' then none else s.lookupSb a' := by
  simp [State.lookupSb, regLookup_remove]
@[simp] theorem lookupGb_remove (a a' : Byte) :
    (s.removeTransfer (.gb a)).lookupGb a' = if a = a' then none else s.lookupGb a' := by
  simp [State.lookupGb, regLookup_remove]

/-! ### A write or a removal in one registry is not seen in another -/

@[simp] theorem lookupTc_putTm (r : TmRec) (a ch : Byte) : (s.putTm r).lookupTc a ch = s.lookupTc a ch := rfl
@[simp] theorem lookupTc_removeTm (a' ch' : Byte) (a ch : Byte) :
    (s.removeTransfer (.tm a' ch')).lookupTc a ch = s.lookupTc a ch := rfl
@[simp] theorem lookupTc_putSb (r : SbRec) (a ch : Byte) : (s.putSb r).lookupTc a ch = s.lookupTc a ch := rfl
@[simp] theorem lookupTc_removeSb (a' : Byte) (a ch : Byte) :
    (s.removeTransfer (.sb a')).lookupTc a ch = s.lookupTc a ch := rfl
@[simp] theorem lookupTc_putGb (r : GbRec) (a ch : Byte) : (s.putGb r).lookupTc a ch = s.lookupTc a ch := rfl
@[simp] theorem lookupTc_removeGb (a' : Byte) (a ch : Byte) :
    (s.removeTransfer (.gb a')).lookupTc a ch = s.lookupTc a ch := rfl
@[simp] theorem lookupTm_putTc (r : TcRec) (a ch : Byte) : (s.putTc r).lookupTm a ch = s.lookupTm a ch := rfl
@[simp] theorem lookupTm_removeTc (a' ch' : Byte) (a ch : Byte) :
    (s.removeTransfer (.tc a' ch')).lookupTm a ch = s.lookupTm a ch := rfl
@[simp] theorem lookupTm_putSb (r : SbRec) (a ch : Byte) : (s.putSb r).lookupTm a ch = s.lookupTm a ch := rfl
@[simp] theorem lookupTm_removeSb (a' : Byte) (a ch : Byte) :
    (s.removeTransfer (.sb a')).lookupTm a ch = s.lookupTm a ch := rfl
@[simp] theorem lookupTm_putGb (r : GbRec) (a ch : Byte) : (s.putGb r).lookupTm a ch = s.lookupTm a ch := rfl
@[simp] theorem lookupTm_removeGb (a' : Byte) (a ch : Byte) :
    (s.removeTransfer (.gb a')).lookupTm a ch = s.lookupTm a ch := rfl
@[simp] theorem lookupSb_putTc (r : TcRec) (a : Byte) : (s.putTc r).lookupSb a = s.lookupSb a := rfl
@[simp] theorem lookupSb_removeTc (a' ch' : Byte) (a : Byte) :
    (s.removeTransfer (.tc a' ch')).lookupSb a = s.lookupSb a := rfl
@[simp] theorem lookupSb_putTm (r : TmRec) (a : Byte) : (s.putTm r).lookupSb a = s.lookupSb a := rfl
@[simp] theorem lookupSb_removeTm (a' ch' : Byte) (a : Byte) :
    (s.removeTransfer (.tm a' ch')).lookupSb a = s.lookupSb a := rfl
@[simp] theorem lookupSb_putGb (r : GbRec) (a : Byte) : (s.putGb r).lookupSb a = s.lookupSb a := rfl
@[simp] theorem lookupSb_removeGb (a' : Byte) (a : Byte) :
    (s.removeTransfer (.gb a')).lookupSb a = s.lookupSb a := rfl
@[simp] theorem lookupGb_putTc (r : TcRec) (a : Byte) : (s.putTc r).lookupGb a = s.lookupGb a := rfl
@[simp] theorem lookupGb_removeTc (a' ch' : Byte) (a : Byte) :
    (s.removeTransfer (.tc a' ch')).lookupGb a = s.lookupGb a := rfl
@[simp] theorem lookupGb_putTm (r : TmRec) (a : Byte) : (s.putTm r).lookupGb a = s.lookupGb a := rfl
@[simp] theorem lookupGb_removeTm (a' ch' : Byte) (a : Byte) :
    (s.removeTransfer (.tm a' ch')).lookupGb a = s.lookupGb a := rfl
@[simp] theorem lookupGb_putSb (r : SbRec) (a : Byte) : (s.putSb r).lookupGb a = s.lookupGb a := rfl
@[simp] theorem lookupGb_removeSb (a' : Byte) (a : Byte) :
    (s.removeTransfer (.sb a')).lookupGb a = s.lookupGb a := rfl

/-! ### A lookup reads its own registry only -/

theorem lookupTc_congr {s t : State} (h : t.tc = s.tc) (a ch : Byte) : t.lookupTc a ch = s.lookupTc a ch := by
  simp [State.lookupTc, h]
theorem lookupTm_congr {s t : State} (h : t.tm = s.tm) (a ch : Byte) : t.lookupTm a ch = s.lookupTm a ch := by
  simp [State.lookupTm, h]
theorem lookupSb_congr {s t : State} (h : t.sb = s.sb) (a : Byte) : t.lookupSb a = s.lookupSb a := by
  simp [State.lookupSb, h]
theorem lookupGb_congr {s t : State} (h : t.gb = s.gb) (a : Byte) : t.lookupGb a = s.lookupGb a := by
  simp [State.lookupGb, h]

/-! ### What no output and no driver touches -/

@[simp] theorem lookupTc_emit (e : OutEvent) (a ch : Byte) : (s.emit e).lookupTc a ch = s.lookupTc a ch := rfl
@[simp] theorem lookupTc_give (r : HostResult) (a ch : Byte) : (s.give r).lookupTc a ch = s.lookupTc a ch := rfl
@[simp] theorem lookupTc_giveBool (v : Bool) (a ch : Byte) : (s.giveBool v).lookupTc a ch = s.lookupTc a ch := rfl
@[simp] theorem lookupTc_setLink (b : Bus) (l : Link) (a ch : Byte) : (s.setLink b l).lookupTc a ch = s.lookupTc a ch :=
  lookupTc_congr (setLink_tc s b l) a ch
@[simp] theorem lookupTc_settle (b : Bus) (c : CanFrame) (a ch : Byte) : (s.settle b c).lookupTc a ch = s.lookupTc a ch :=
  lookupTc_congr (settle_tc s b c) a ch
@[simp] theorem lookupTc_afterSend (f : LogicalFrame) (a ch : Byte) : (s.afterSend f).lookupTc a ch = s.lookupTc a ch :=
  lookupTc_congr (afterSend_tc s f) a ch
@[simp] theorem lookupTm_emit (e : OutEvent) (a ch : Byte) : (s.emit e).lookupTm a ch = s.lookupTm a ch := rfl
@[simp] theorem lookupTm_give (r : HostResult) (a ch : Byte) : (s.give r).lookupTm a ch = s.lookupTm a ch := rfl
@[simp] theorem lookupTm_giveBool (v : Bool) (a ch : Byte) : (s.giveBool v).lookupTm a ch = s.lookupTm a ch := rfl
@[simp] theorem lookupTm_setLink (b : Bus) (l : Link) (a ch : Byte) : (s.setLink b l).lookupTm a ch = s.lookupTm a ch :=
  lookupTm_congr (setLink_tm s b l) a ch
@[simp] theorem lookupTm_settle (b : Bus) (c : CanFrame) (a ch : Byte) : (s.settle b c).lookupTm a ch = s.lookupTm a ch :=
  lookupTm_congr (settle_tm s b c) a ch
@[simp] theorem lookupTm_afterSend (f : LogicalFrame) (a ch : Byte) : (s.afterSend f).lookupTm a ch = s.lookupTm a ch :=
  lookupTm_congr (afterSend_tm s f) a ch
@[simp] theorem lookupSb_emit (e : OutEvent) (a : Byte) : (s.emit e).lookupSb a = s.lookupSb a := rfl
@[simp] theorem lookupSb_give (r : HostResult) (a : Byte) : (s.give r).lookupSb a = s.lookupSb a := rfl
@[simp] theorem lookupSb_giveBool (v : Bool) (a : Byte) : (s.giveBool v).lookupSb a = s.lookupSb a := rfl
@[simp] theorem lookupSb_setLink (b : Bus) (l : Link) (a : Byte) : (s.setLink b l).lookupSb a = s.lookupSb a :=
  lookupSb_congr (setLink_sb s b l) a
@[simp] theorem lookupSb_settle (b : Bus) (c : CanFrame) (a : Byte) : (s.settle b c).lookupSb a = s.lookupSb a :=
  lookupSb_congr (settle_sb s b c) a
@[simp] theorem lookupSb_afterSend (f : LogicalFrame) (a : Byte) : (s.afterSend f).lookupSb a = s.lookupSb a :=
  lookupSb_congr (afterSend_sb s f) a
@[simp] theorem lookupGb_emit (e : OutEvent) (a : Byte) : (s.emit e).lookupGb a = s.lookupGb a := rfl
@[simp] theorem lookupGb_give (r : HostResult) (a : Byte) : (s.give r).lookupGb a = s.lookupGb a := rfl
@[simp] theorem lookupGb_giveBool (v : Bool) (a : Byte) : (s.giveBool v).lookupGb a = s.lookupGb a := rfl
@[simp] theorem lookupGb_setLink (b : Bus) (l : Link) (a : Byte) : (s.setLink b l).lookupGb a = s.lookupGb a :=
  lookupGb_congr (setLink_gb s b l) a
@[simp] theorem lookupGb_settle (b : Bus) (c : CanFrame) (a : Byte) : (s.settle b c).lookupGb a = s.lookupGb a :=
  lookupGb_congr (settle_gb s b c) a
@[simp] theorem lookupGb_afterSend (f : LogicalFrame) (a : Byte) : (s.afterSend f).lookupGb a = s.lookupGb a :=
  lookupGb_congr (afterSend_gb s f) a

end Sys2Proof.Machine
end

