-- ==== Sys2Proof/Laws/Effects.lean ====
section
/-! SUPPORT. What each shared operation on a record does, said once: the terminal primitives (R575, R576), the hand-offs and
the retry policies, in the terms of Sys2Proof/Safety.lean. -/

namespace Sys2Proof.Machine

variable (s : State)

/-! ### Writing a record back -/

theorem putTc_changes (r : TcRec) : ChangesTc s (s.putTc r) r.address r.channel (some r) [] := by
  refine ⟨by simp, fun a' ch' h => ?_, by simp [State.putTc]⟩
  rw [lookupTc_put, if_neg]; rintro ⟨rfl, rfl⟩; exact h ⟨rfl, rfl⟩
theorem putTm_changes (r : TmRec) : ChangesTm s (s.putTm r) r.address r.channel (some r) [] := by
  refine ⟨by simp, fun a' ch' h => ?_, by simp [State.putTm]⟩
  rw [lookupTm_put, if_neg]; rintro ⟨rfl, rfl⟩; exact h ⟨rfl, rfl⟩
theorem putSb_changes (r : SbRec) : ChangesSb s (s.putSb r) r.address (some r) [] := by
  refine ⟨by simp, fun a' h => ?_, by simp [State.putSb]⟩
  rw [lookupSb_put, if_neg]; rintro rfl; exact h rfl
theorem putGb_changes (r : GbRec) : ChangesGb s (s.putGb r) r.address (some r) [] := by
  refine ⟨by simp, fun a' h => ?_, by simp [State.putGb]⟩
  rw [lookupGb_put, if_neg]; rintro rfl; exact h rfl

/-! ### The end of a transfer -/

theorem endTransfer_tc (a ch : Byte) (e : OutEvent) :
    ChangesTc s (s.endTransfer (.tc a ch) e) a ch none [.event e] := by
  refine ⟨by simp [State.endTransfer], fun a' ch' h => ?_,
    by simp [State.endTransfer, State.emit, State.removeTransfer]⟩
  rw [State.endTransfer, lookupTc_congr (emit_tc _ _), lookupTc_remove, if_neg]
  rintro ⟨rfl, rfl⟩; exact h ⟨rfl, rfl⟩
theorem endTransfer_tm (a ch : Byte) (e : OutEvent) :
    ChangesTm s (s.endTransfer (.tm a ch) e) a ch none [.event e] := by
  refine ⟨by simp [State.endTransfer], fun a' ch' h => ?_,
    by simp [State.endTransfer, State.emit, State.removeTransfer]⟩
  rw [State.endTransfer, lookupTm_congr (emit_tm _ _), lookupTm_remove, if_neg]
  rintro ⟨rfl, rfl⟩; exact h ⟨rfl, rfl⟩
theorem endTransfer_sb (a : Byte) (e : OutEvent) : ChangesSb s (s.endTransfer (.sb a) e) a none [.event e] := by
  refine ⟨by simp [State.endTransfer], fun a' h => ?_,
    by simp [State.endTransfer, State.emit, State.removeTransfer]⟩
  rw [State.endTransfer, lookupSb_congr (emit_sb _ _), lookupSb_remove, if_neg]
  rintro rfl; exact h rfl
theorem endTransfer_gb (a : Byte) (e : OutEvent) : ChangesGb s (s.endTransfer (.gb a) e) a none [.event e] := by
  refine ⟨by simp [State.endTransfer], fun a' h => ?_,
    by simp [State.endTransfer, State.emit, State.removeTransfer]⟩
  rw [State.endTransfer, lookupGb_congr (emit_gb _ _), lookupGb_remove, if_neg]
  rintro rfl; exact h rfl

theorem failTc_changes (r : TcRec) (k : TcKind) :
    ChangesTc s (s.failTc r k) r.address r.channel none [.event (.sendTcFailed r.address r.channel k)] :=
  endTransfer_tc s _ _ _
theorem failTm_changes (r : TmRec) (k : TmKind) :
    ChangesTm s (s.failTm r k) r.address r.channel none [.event (.receiveTmFailed r.address r.channel k)] :=
  endTransfer_tm s _ _ _
theorem failSb_changes (r : SbRec) (k : SbKind) : FailsSb s (s.failSb r k) r k := endTransfer_sb s _ _
theorem failGb_changes (r : GbRec) (k : GbKind) : FailsGb s (s.failGb r k) r k := endTransfer_gb s _ _

/-! ### Hand-offs and retries -/

theorem tcHandOff_handsOff (r : TcRec) : HandsOffTc s (s.tcHandOff r) r := by
  unfold HandsOffTc State.tcHandOff
  by_cases h : s.accepts = true
  · rw [if_pos h, if_pos h]; exact putTc_changes _ _
  · rw [if_neg h, if_neg h]; exact failTc_changes _ _ _

theorem tcRetry_retries (r : TcRec) : RetriesTc s (s.tcRetry r) r := by
  unfold RetriesTc State.tcRetry
  by_cases h : r.maxRetries.toNat < r.retryCount.toNat
  · rw [if_pos h, if_pos (BitVec.lt_def.2 h)]; exact failTc_changes _ _ _
  · rw [if_neg h, if_neg (fun h' => h (BitVec.lt_def.1 h'))]; exact tcHandOff_handsOff s r

theorem tmHandOff_handsOff (r : TmRec) : HandsOffTm s (s.tmHandOff r) r := by
  unfold HandsOffTm State.tmHandOff
  by_cases h : s.accepts = true
  · rw [if_pos h, if_pos h]; exact putTm_changes _ _
  · rw [if_neg h, if_neg h]; exact failTm_changes _ _ _

theorem tmRetry_retries (r : TmRec) : RetriesTm s (s.tmRetry r) r := by
  unfold RetriesTm State.tmRetry
  by_cases h : r.maxRetries.toNat < r.retryCount.toNat
  · rw [if_pos h, if_pos (BitVec.lt_def.2 h)]; exact failTm_changes _ _ _
  · rw [if_neg h, if_neg (fun h' => h (BitVec.lt_def.1 h'))]; exact tmHandOff_handsOff s r

theorem sbHandOff_handsOff (r : SbRec) (f : LogicalFrame) (tx : SbTx) (k : SbKind) :
    HandsOffSb s (s.sbHandOff r f tx k) r f tx k := by
  unfold HandsOffSb State.sbHandOff
  by_cases h : s.accepts = true
  · rw [if_pos h, if_pos h]; exact putSb_changes _ _
  · rw [if_neg h, if_neg h]; exact failSb_changes _ _ _

theorem sbRetryRequest_retries (r : SbRec) : RetriesSbRequest s (s.sbRetryRequest r) r := by
  unfold RetriesSbRequest State.sbRetryRequest
  by_cases h : r.maxRetries.toNat < r.retryCount.toNat
  · rw [if_pos h, if_pos (BitVec.lt_def.2 h)]; exact failSb_changes _ _ _
  · rw [if_neg h, if_neg (fun h' => h (BitVec.lt_def.1 h'))]; exact sbHandOff_handsOff _ _ _ _ _

theorem sbRetryStatus_retries (r : SbRec) : RetriesSbStatus s (s.sbRetryStatus r) r := by
  unfold RetriesSbStatus State.sbRetryStatus
  by_cases h : r.maxRetries.toNat < r.retryCount.toNat
  · rw [if_pos h, if_pos (BitVec.lt_def.2 h)]; exact failSb_changes _ _ _
  · rw [if_neg h, if_neg (fun h' => h (BitVec.lt_def.1 h'))]; exact sbHandOff_handsOff _ _ _ _ _

theorem gbHandOff_handsOff (r : GbRec) (f : LogicalFrame) (tx : GbTx) (k : GbKind) :
    HandsOffGb s (s.gbHandOff r f tx k) r f tx k := by
  unfold HandsOffGb State.gbHandOff
  by_cases h : s.accepts = true
  · rw [if_pos h, if_pos h]; exact putGb_changes _ _
  · rw [if_neg h, if_neg h]; exact failGb_changes _ _ _

theorem gbRetryRequest_retries (r : GbRec) : RetriesGbRequest s (s.gbRetryRequest r) r := by
  unfold RetriesGbRequest State.gbRetryRequest
  by_cases h : r.maxRetries.toNat < r.retryCount.toNat
  · rw [if_pos h, if_pos (BitVec.lt_def.2 h)]; exact failGb_changes _ _ _
  · rw [if_neg h, if_neg (fun h' => h (BitVec.lt_def.1 h'))]; exact gbHandOff_handsOff _ _ _ _ _

theorem gbRetryStart_retries (r : GbRec) : RetriesGbStart s (s.gbRetryStart r) r := by
  unfold RetriesGbStart State.gbRetryStart
  by_cases h : r.maxStartRetries.toNat < r.startRetryCount.toNat
  · rw [if_pos h, if_pos (BitVec.lt_def.2 h)]; exact failGb_changes _ _ _
  · rw [if_neg h, if_neg (fun h' => h (BitVec.lt_def.1 h'))]; exact gbHandOff_handsOff _ _ _ _ _

theorem gbRetryAbort_retries (r : GbRec) : RetriesGbAbort s (s.gbRetryAbort r) r := by
  unfold RetriesGbAbort State.gbRetryAbort
  by_cases h : r.maxRetries.toNat < r.retryCount.toNat
  · rw [if_pos h, if_pos (BitVec.lt_def.2 h)]; exact failGb_changes _ _ _
  · rw [if_neg h, if_neg (fun h' => h (BitVec.lt_def.1 h'))]; exact gbHandOff_handsOff _ _ _ _ _

/-! ### Checked operations of an SB record with a bitmap of its size -/

theorem successPath_ok {r : SbRec} (h : r.blocks.toNat ≤ 8 * r.bitmap.length) :
    successPath r = .ok (decide r.succeeded) := by
  unfold successPath SbRec.succeeded
  cases r.done
  · simp
  · simp [allSet_ok h]

theorem reportValid_ok (blocks : Byte) (done : Bool) (data : List Byte) :
    reportValid blocks done data =
      .ok (decide (isValid data blocks.toNat = true ∧ (done = true → FullBitmap data blocks.toNat))) := by
  unfold reportValid
  by_cases h : isValid data blocks.toNat = true
  · cases done
    · simp [h]
    · simp [h, allSet_ok (isValid_le h)]
  · simp [h]

/-- A TRANSFER inside the block carries the bytes of its frame (R222). -/
theorem sbTransferFrame_ok {L : Byte} {r : SbRec} {k : Nat} (h : 8 * k ≤ r.data.length) :
    sbTransferFrame L r k = .ok (transferFrame L r k) := by
  unfold sbTransferFrame transferFrame
  rw [memRead_ok (by omega)]
  simp only
  have e : (r.data.drop (8 * k)).take (min 8 (r.data.length - 8 * k)) = (r.data.drop (8 * k)).take 8 :=
    List.take_eq_take_iff.2 (by simp)
  rw [e]

theorem sbRetryAbort_retries {r : SbRec} (hb : r.blocks.toNat ≤ 8 * r.bitmap.length) :
    ∃ t, s.sbRetryAbort r = .next t ∧ RetriesSbAbort s t r := by
  unfold RetriesSbAbort State.sbRetryAbort
  by_cases h : r.maxRetries.toNat < r.retryCount.toNat
  · rw [if_pos (BitVec.lt_def.2 h), successPath_ok hb]
    refine ⟨_, rfl, ?_⟩
    rw [if_pos h]
    simp only [decide_eq_true_eq]
    exact failSb_changes _ _ _
  · rw [if_neg (fun h' => h (BitVec.lt_def.1 h'))]
    exact ⟨_, rfl, by rw [if_neg h]; exact sbHandOff_handsOff _ _ _ _ _⟩

theorem sbSendTransfer_handsOff {r : SbRec} {k : Nat} (h : 8 * k ≤ r.data.length) :
    ∃ t, s.sbSendTransfer r k = .next t ∧
      HandsOffSb s t r (transferFrame s.address r k) .sendingData .sendDataFailed := by
  unfold State.sbSendTransfer
  rw [sbTransferFrame_ok h]
  exact ⟨_, rfl, sbHandOff_handsOff _ _ _ _ _⟩

/-! ### The delivery gates -/

theorem receiveLocal_hears {b : Bus} {a : Byte} {h : State → Result} (hb : s.hears b) (ha : a = s.address) :
    receiveLocal b a s h = h s := if_pos ⟨hb.1, hb.2, ha⟩

theorem receiveLocal_not {b : Bus} {a : Byte} {h : State → Result} (hn : ¬(s.hears b ∧ a = s.address)) :
    receiveLocal b a s h = .next s := if_neg fun hp => hn ⟨⟨hp.1, hp.2.1⟩, hp.2.2⟩

theorem confirm_hears {b : Bus} {c : CanFrame} {h : State → Result} (hb : s.hears b) :
    confirm b c s h = h (s.settle b c) := by
  rw [confirm, if_pos hb.1, if_pos hb.2]

theorem confirm_inactive {b : Bus} {c : CanFrame} {h : State → Result} (hd : s.delivers b = true)
    (hb : b ≠ s.activeBus) : confirm b c s h = .next (s.settle b c) := by
  rw [confirm, if_pos hd, if_neg hb]

theorem confirm_silent {b : Bus} {c : CanFrame} {h : State → Result} (hd : s.delivers b = false) :
    confirm b c s h = .next s := by
  rw [confirm, hd]; rfl

/-! ### Correlation -/

/-- A decoded frame touches the key that the frame itself is correlated to (R298, R299). -/
theorem touches_of_decode {p : Port} {c : CanFrame} {i : Instr} (h : decode p c = .ok i) :
    touches i = frameKey p (frameFields c) := by
  unfold decode at h
  split at h
  · cases h
  split at h
  · cases h
  unfold frameKey
  revert h
  generalize frameFields c = f
  unfold decodeKind decodeTc decodeTm decodeSb decodeGb
  cases TransferType.ofBits f.transferType <;> intro h <;> simp only at h ⊢ <;> (try split at h) <;> cases h <;> rfl

end Sys2Proof.Machine
end

