-- ==== Sys2Proof/Laws/Invariant.lean ====
section
/-! SUPPORT. Each shared operation keeps `State.Inv`: outputs, drivers, writing a well-formed record back, the end of a
transfer, and the hand-offs. The proof that a step keeps it is then one case split over the handlers. -/

namespace Sys2Proof.Machine

variable {s : State}

/-! ### Records of a state that meets the invariant -/

theorem inv_tcWF (hi : s.Inv) {a ch : Byte} {r : TcRec} (h : s.lookupTc a ch = some r) : r.WF :=
  hi.2.1.1 r (regLookup_mem h)
theorem inv_tmWF (hi : s.Inv) {a ch : Byte} {r : TmRec} (h : s.lookupTm a ch = some r) : r.WF :=
  hi.2.1.2.1 r (regLookup_mem h)
theorem inv_sbWF (hi : s.Inv) {a : Byte} {r : SbRec} (h : s.lookupSb a = some r) : r.WF :=
  hi.2.1.2.2.1 r (regLookup_mem h)
theorem inv_gbWF (hi : s.Inv) {a : Byte} {r : GbRec} (h : s.lookupGb a = some r) : r.WF s.params :=
  hi.2.1.2.2.2 r (regLookup_mem h)

/-- A record exists only while the engine runs (R65, R612). -/
theorem inv_running_of_tc (hi : s.Inv) {a ch : Byte} {r : TcRec} (h : s.lookupTc a ch = some r) : s.running = true := by
  by_contra hr
  simp [State.lookupTc, (hi.2.2.2.2 (by simpa using hr)).1] at h
theorem inv_running_of_tm (hi : s.Inv) {a ch : Byte} {r : TmRec} (h : s.lookupTm a ch = some r) : s.running = true := by
  by_contra hr
  simp [State.lookupTm, (hi.2.2.2.2 (by simpa using hr)).2.1] at h
theorem inv_running_of_sb (hi : s.Inv) {a : Byte} {r : SbRec} (h : s.lookupSb a = some r) : s.running = true := by
  by_contra hr
  simp [State.lookupSb, (hi.2.2.2.2 (by simpa using hr)).2.2.1] at h
theorem inv_running_of_gb (hi : s.Inv) {a : Byte} {r : GbRec} (h : s.lookupGb a = some r) : s.running = true := by
  by_contra hr
  simp [State.lookupGb, (hi.2.2.2.2 (by simpa using hr)).2.2.2] at h

/-- The bitmap of a well-formed record covers its blocks. -/
theorem sbWF_le {r : SbRec} (h : r.WF) : r.blocks.toNat ≤ 8 * r.bitmap.length := isValid_le h.2.2.2.2.1
theorem gbWF_le {p : Params} {r : GbRec} (h : r.WF p) : r.blocks.toNat ≤ 8 * r.bitmap.length :=
  isValid_le h.2.2.2.1

/-- A frame index of a well-formed record lies inside its data (R241). -/
theorem sbWF_inside {r : SbRec} (h : r.WF) {k : Nat} (hk : k < r.blocks.toNat) : 8 * k ≤ r.data.length := by
  have := h.2.2.2.1
  unfold sbBlocks ceilDiv8 at this
  omega

/-! ### Outputs -/

theorem inv_emit (hi : s.Inv) (e : OutEvent) : (s.emit e).Inv := hi
theorem inv_give (hi : s.Inv) (r : HostResult) : (s.give r).Inv := hi
theorem inv_giveBool (hi : s.Inv) (v : Bool) : (s.giveBool v).Inv := hi

/-! ### Drivers -/

theorem inv_setLink (hi : s.Inv) {b : Bus} {l : Link} (hl : l.WF) (ho : l.isOpen = (s.link b).isOpen) :
    (s.setLink b l).Inv := by
  obtain ⟨h1, h2, ⟨h3, h4, h5, h6⟩, h7⟩ := hi
  cases b
  · exact ⟨h1, h2, ⟨hl, h4, ho.trans h5, h6⟩, h7⟩
  · exact ⟨h1, h2, ⟨h3, hl, h5, ho.trans h6⟩, h7⟩

theorem inv_link (hi : s.Inv) (b : Bus) : (s.link b).WF := by
  cases b
  · exact hi.2.2.1.1
  · exact hi.2.2.1.2.1

theorem builtFrame_encode {f : LogicalFrame} (h : f.data.length ≤ 8) : BuiltFrame (encodeFrame f) :=
  ⟨rfl, rfl, encodeId_lt _ _ _ _, h⟩

theorem inv_afterSend (hi : s.Inv) {f : LogicalFrame} (hf : f.data.length ≤ 8) : (s.afterSend f).Inv := by
  have hw := inv_link hi s.activeBus
  refine inv_setLink hi ?_ ?_
  · unfold Link.offer
    split
    · rename_i ho
      split
      · refine ⟨fun c hc => ?_, fun h => ?_⟩
        · rcases List.mem_append.1 hc with hc | hc
          · exact hw.1 c hc
          · rw [List.mem_singleton.1 hc]; exact builtFrame_encode hf
        · exact absurd (h.symm.trans ho) (by simp)
      · exact ⟨hw.1, fun h => absurd (h.symm.trans ho) (by simp)⟩
    · exact hw
  · unfold Link.offer
    split
    · split <;> rfl
    · rfl

theorem inv_settle (hi : s.Inv) (b : Bus) (c : CanFrame) : (s.settle b c).Inv :=
  inv_setLink hi ⟨fun c' hc => (inv_link hi b).1 c' (List.mem_of_mem_erase hc),
    fun h => by have := (inv_link hi b).2 h; simp [this]⟩ rfl

/-! ### Registries -/

theorem inv_putTc (hi : s.Inv) (hr : s.running = true) {r : TcRec} (hw : r.WF) : (s.putTc r).Inv := by
  obtain ⟨⟨c1, c2, c3, c4⟩, ⟨w1, w2, w3, w4⟩, hl, hm⟩ := hi
  refine ⟨⟨canonical_regPut c1, c2, c3, c4⟩, ⟨fun x hx => ?_, w2, w3, w4⟩, hl, hm.1, fun h => ?_⟩
  · rcases mem_regPut hx with rfl | hx
    · exact hw
    · exact w1 x hx
  · exact absurd (h.symm.trans hr) (by simp)
theorem inv_putTm (hi : s.Inv) (hr : s.running = true) {r : TmRec} (hw : r.WF) : (s.putTm r).Inv := by
  obtain ⟨⟨c1, c2, c3, c4⟩, ⟨w1, w2, w3, w4⟩, hl, hm⟩ := hi
  refine ⟨⟨c1, canonical_regPut c2, c3, c4⟩, ⟨w1, fun x hx => ?_, w3, w4⟩, hl, hm.1, fun h => ?_⟩
  · rcases mem_regPut hx with rfl | hx
    · exact hw
    · exact w2 x hx
  · exact absurd (h.symm.trans hr) (by simp)
theorem inv_putSb (hi : s.Inv) (hr : s.running = true) {r : SbRec} (hw : r.WF) : (s.putSb r).Inv := by
  obtain ⟨⟨c1, c2, c3, c4⟩, ⟨w1, w2, w3, w4⟩, hl, hm⟩ := hi
  refine ⟨⟨c1, c2, canonical_regPut c3, c4⟩, ⟨w1, w2, fun x hx => ?_, w4⟩, hl, hm.1, fun h => ?_⟩
  · rcases mem_regPut hx with rfl | hx
    · exact hw
    · exact w3 x hx
  · exact absurd (h.symm.trans hr) (by simp)
theorem inv_putGb (hi : s.Inv) (hr : s.running = true) {r : GbRec} (hw : r.WF s.params) : (s.putGb r).Inv := by
  obtain ⟨⟨c1, c2, c3, c4⟩, ⟨w1, w2, w3, w4⟩, hl, hm⟩ := hi
  refine ⟨⟨c1, c2, c3, canonical_regPut c4⟩, ⟨w1, w2, w3, fun x hx => ?_⟩, hl, hm.1, fun h => ?_⟩
  · rcases mem_regPut hx with rfl | hx
    · exact hw
    · exact w4 x hx
  · exact absurd (h.symm.trans hr) (by simp)

/-- The end of a transfer keeps the invariant, whatever the event. -/
theorem inv_endTransfer (hi : s.Inv) (k : Key) (e : OutEvent) : (s.endTransfer k e).Inv := by
  obtain ⟨⟨c1, c2, c3, c4⟩, ⟨w1, w2, w3, w4⟩, hl, hm, hn⟩ := hi
  cases k
  · exact ⟨⟨canonical_regRemove c1, c2, c3, c4⟩, ⟨fun x hx => w1 x (mem_regRemove hx).1, w2, w3, w4⟩, hl, hm,
      fun h => by obtain ⟨h1, h⟩ := hn h; exact ⟨by rw [State.endTransfer, emit_tc, State.removeTransfer, h1]; rfl, h⟩⟩
  · exact ⟨⟨c1, canonical_regRemove c2, c3, c4⟩, ⟨w1, fun x hx => w2 x (mem_regRemove hx).1, w3, w4⟩, hl, hm,
      fun h => by
        obtain ⟨h1, h2, h⟩ := hn h
        exact ⟨h1, by rw [State.endTransfer, emit_tm, State.removeTransfer, h2]; rfl, h⟩⟩
  · exact ⟨⟨c1, c2, canonical_regRemove c3, c4⟩, ⟨w1, w2, fun x hx => w3 x (mem_regRemove hx).1, w4⟩, hl, hm,
      fun h => by
        obtain ⟨h1, h2, h3, h⟩ := hn h
        exact ⟨h1, h2, by rw [State.endTransfer, emit_sb, State.removeTransfer, h3]; rfl, h⟩⟩
  · exact ⟨⟨c1, c2, c3, canonical_regRemove c4⟩, ⟨w1, w2, w3, fun x hx => w4 x (mem_regRemove hx).1⟩, hl, hm,
      fun h => by
        obtain ⟨h1, h2, h3, h4⟩ := hn h
        exact ⟨h1, h2, h3, by rw [State.endTransfer, emit_gb, State.removeTransfer, h4]; rfl⟩⟩

/-! ### Hand-offs -/

theorem inv_tcHandOff (hi : s.Inv) (hr : s.running = true) {r : TcRec} (hd : r.data.length ≤ 8)
    (hw : TcRec.WF { r with tx := .sendingRequest }) : (s.tcHandOff r).Inv := by
  have ha : (s.afterSend (tcRequestFrame s.address r)).Inv := inv_afterSend hi hd
  unfold State.tcHandOff
  split
  · exact inv_putTc ha (by simpa using hr) hw
  · exact inv_endTransfer ha _ _

theorem inv_tmHandOff (hi : s.Inv) (hr : s.running = true) {r : TmRec}
    (hw : TmRec.WF { r with tx := .sendingRequest }) : (s.tmHandOff r).Inv := by
  have ha : (s.afterSend (tmRequestFrame s.address r)).Inv := inv_afterSend hi (Nat.zero_le 8)
  unfold State.tmHandOff
  split
  · exact inv_putTm ha (by simpa using hr) hw
  · exact inv_endTransfer ha _ _

theorem inv_sbHandOff (hi : s.Inv) (hr : s.running = true) {r : SbRec} {f : LogicalFrame} {tx : SbTx} {kind : SbKind}
    (hf : f.data.length ≤ 8) (hw : SbRec.WF { r with tx := tx }) : (s.sbHandOff r f tx kind).Inv := by
  have ha : (s.afterSend f).Inv := inv_afterSend hi hf
  unfold State.sbHandOff
  split
  · exact inv_putSb ha (by simpa using hr) hw
  · exact inv_endTransfer ha _ _

theorem inv_gbHandOff (hi : s.Inv) (hr : s.running = true) {r : GbRec} {f : LogicalFrame} {tx : GbTx} {kind : GbKind}
    (hf : f.data.length ≤ 8) (hw : GbRec.WF s.params { r with tx := tx }) : (s.gbHandOff r f tx kind).Inv := by
  have ha : (s.afterSend f).Inv := inv_afterSend hi hf
  unfold State.gbHandOff
  split
  · exact inv_putGb ha (by simpa using hr) (by simpa using hw)
  · exact inv_endTransfer ha _ _

/-! ### Commands that clear -/

theorem inv_clearRegistries (hi : s.Inv) : s.clearRegistries.Inv := by
  obtain ⟨_, _, hl, hm, _⟩ := hi
  refine ⟨⟨?_, ?_, ?_, ?_⟩, ⟨?_, ?_, ?_, ?_⟩, hl, hm, fun _ => ⟨rfl, rfl, rfl, rfl⟩⟩ <;>
    simp [State.clearRegistries, Canonical]

end Sys2Proof.Machine
end

