-- ==== Sys2Proof/Laws/Handlers.lean ====
section
/-! SUPPORT. Each handler keeps `State.Inv`, and the checked ones have a next state from it: no bitmap or buffer primitive is
called outside its range (R95, R261). -/

namespace Sys2Proof.Machine

/-- A result that goes on, to a state that meets the invariant. -/
def Kept (r : Result) : Prop := ∃ t, r = .next t ∧ t.Inv

variable {s : State}

theorem kept {t : State} (h : t.Inv) : Kept (.next t) := ⟨t, rfl, h⟩

/-! ### The delivery gates -/

theorem kept_confirm {b : Bus} {c : CanFrame} {h : State → Result} (hi : s.Inv)
    (hh : ∀ u : State, u.Inv → Kept (h u)) : Kept (confirm b c s h) := by
  unfold confirm
  split
  · split
    · exact hh _ (inv_settle hi _ _)
    · exact kept (inv_settle hi _ _)
  · exact kept hi

theorem kept_confirmIgnored {b : Bus} {f : LogicalFrame} (hi : s.Inv) : Kept (confirmIgnored b f s) :=
  kept_confirm hi fun _ h => kept h

theorem kept_receiveLocal {b : Bus} {a : Byte} {h : State → Result} (hi : s.Inv)
    (hh : ∀ u : State, u.Inv → Kept (h u)) : Kept (receiveLocal b a s h) := by
  unfold receiveLocal
  split
  · exact hh _ hi
  · exact kept hi

/-! ### Telecommand and telemetry -/

theorem inv_tcRetry (hi : s.Inv) (hr : s.running = true) {r : TcRec} (hd : r.data.length ≤ 8)
    (hw : TcRec.WF { r with tx := .sendingRequest }) :
    (s.tcRetry r).Inv := by
  unfold State.tcRetry; split
  · exact inv_endTransfer hi _ _
  · exact inv_tcHandOff hi hr hd hw
theorem inv_tmRetry (hi : s.Inv) (hr : s.running = true) {r : TmRec}
    (hw : TmRec.WF { r with tx := .sendingRequest }) :
    (s.tmRetry r).Inv := by
  unfold State.tmRetry; split
  · exact inv_endTransfer hi _ _
  · exact inv_tmHandOff hi hr hw

theorem inv_tcRequestSent (hi : s.Inv) (a ch) : (s.tcRequestSent a ch).Inv := by
  unfold State.tcRequestSent
  split
  · rename_i r hl
    split
    · have hw := inv_tcWF hi hl
      exact inv_putTc hi (inv_running_of_tc hi hl) ⟨hw.1, hw.2.1, .inr ⟨rfl, rfl, rfl⟩⟩
    · exact hi
  · exact hi
theorem inv_tcRequestError (hi : s.Inv) (a ch) : (s.tcRequestError a ch).Inv := by
  unfold State.tcRequestError
  split
  · split
    · exact inv_endTransfer hi _ _
    · exact hi
  · exact hi
theorem inv_tcOnAck (hi : s.Inv) (a ch) : (s.tcOnAck a ch).Inv := by
  unfold State.tcOnAck
  split
  · split
    · exact inv_endTransfer hi _ _
    · exact hi
  · exact hi
theorem inv_tcOnNack (hi : s.Inv) (a ch) : (s.tcOnNack a ch).Inv := by
  unfold State.tcOnNack
  split
  · rename_i r hl
    split
    · have hw := inv_tcWF hi hl
      exact inv_tcRetry hi (inv_running_of_tc hi hl) hw.2.1 ⟨hw.1, hw.2.1, .inl ⟨rfl, rfl, rfl⟩⟩
    · exact hi
  · exact hi
theorem inv_tmRequestSent (hi : s.Inv) (a ch) : (s.tmRequestSent a ch).Inv := by
  unfold State.tmRequestSent
  split
  · rename_i r hl
    split
    · have hw := inv_tmWF hi hl
      exact inv_putTm hi (inv_running_of_tm hi hl) ⟨hw.1, .inr ⟨rfl, rfl, rfl⟩⟩
    · exact hi
  · exact hi
theorem inv_tmRequestError (hi : s.Inv) (a ch) : (s.tmRequestError a ch).Inv := by
  unfold State.tmRequestError
  split
  · split
    · exact inv_endTransfer hi _ _
    · exact hi
  · exact hi
theorem inv_tmOnAck (hi : s.Inv) (a ch d) : (s.tmOnAck a ch d).Inv := by
  unfold State.tmOnAck
  split
  · split
    · exact inv_endTransfer hi _ _
    · exact hi
  · exact hi
theorem inv_tmOnNack (hi : s.Inv) (a ch) : (s.tmOnNack a ch).Inv := by
  unfold State.tmOnNack
  split
  · rename_i r hl
    split
    · have hw := inv_tmWF hi hl
      exact inv_tmRetry hi (inv_running_of_tm hi hl) ⟨hw.1, .inl ⟨rfl, rfl, rfl⟩⟩
    · exact hi
  · exact hi

/-! ### Set block -/

theorem sbWF_waiting {r : SbRec} (hw : r.WF) (hx : r.rx ≠ .idle) : r.tx = .idle ∧ r.rd.isArmed = false := by
  obtain ⟨_, _, _, _, _, h6, _, _, h9⟩ := hw
  have := h6.2 hx
  refine ⟨this, ?_⟩
  cases hA : r.rd.isArmed
  · rfl
  · rw [this] at h9; exact absurd (h9.1 hA) (by simp)

/-- A waiting record whose watchdog was stopped may send again. -/
theorem sbWF_resend {r : SbRec} (hw : r.WF) (hx : r.rx ≠ .idle) {tx : SbTx} (h1 : tx ≠ .idle) (h2 : tx ≠ .sendingStart) (h3 : tx ≠ .waitingForSendStatusRequest) :
    SbRec.WF { r with wd := .idle, rx := .idle, tx := tx } := by
  have h := sbWF_waiting hw hx
  obtain ⟨a1, a2, a3, a4, a5, _, _, _, _⟩ := hw
  exact ⟨a1, a2, a3, a4, a5, by simp [h1], h2, by simp [Timer.isArmed], by simp [h.2, h3]⟩

theorem inv_sbRetryRequest (hi : s.Inv) {a : Byte} {r : SbRec} (hl : s.lookupSb a = some r) (hx : r.rx ≠ .idle) :
    (s.sbRetryRequest { r with wd := .idle, rx := .idle }).Inv := by
  have hw := inv_sbWF hi hl
  unfold State.sbRetryRequest; split
  · exact inv_endTransfer hi _ _
  · exact inv_sbHandOff hi (inv_running_of_sb hi hl) hw.2.1.2 (sbWF_resend hw hx (by simp) (by simp) (by simp))
theorem inv_sbRetryStatus (hi : s.Inv) {a : Byte} {r : SbRec} (hl : s.lookupSb a = some r) (hx : r.rx ≠ .idle) :
    (s.sbRetryStatus { r with wd := .idle, rx := .idle }).Inv := by
  have hw := inv_sbWF hi hl
  unfold State.sbRetryStatus; split
  · exact inv_endTransfer hi _ _
  · exact inv_sbHandOff hi (inv_running_of_sb hi hl) (by simp [sbStatusFrame, sbFrame]) (sbWF_resend hw hx (by simp) (by simp) (by simp))
theorem kept_sbRetryAbort (hi : s.Inv) {a : Byte} {r : SbRec} (hl : s.lookupSb a = some r) (hx : r.rx ≠ .idle) :
    Kept (s.sbRetryAbort { r with wd := .idle, rx := .idle }) := by
  have hw := inv_sbWF hi hl
  unfold State.sbRetryAbort; split
  · rw [successPath_ok (r := { r with wd := .idle, rx := .idle }) (sbWF_le (r := r) hw)]
    exact kept (inv_endTransfer hi _ _)
  · exact kept (inv_sbHandOff hi (inv_running_of_sb hi hl) (Nat.zero_le 8) (sbWF_resend hw hx (by simp) (by simp) (by simp)))

theorem transferFrame_length (L : Byte) (r : SbRec) (k : Nat) : (transferFrame L r k).data.length ≤ 8 := by
  simp [transferFrame, sbFrame]

theorem kept_sbSendTransfer (hi : s.Inv) (hr : s.running = true) {r : SbRec} {k : Nat}
    (h : 8 * k ≤ r.data.length) (hw : SbRec.WF { r with tx := .sendingData }) :
    Kept (s.sbSendTransfer r k) := by
  unfold State.sbSendTransfer
  rw [sbTransferFrame_ok h]
  exact kept (inv_sbHandOff hi hr (transferFrame_length _ _ _) hw)

theorem inv_sbRequestSent (hi : s.Inv) (a) : (s.sbRequestSent a).Inv := by
  unfold State.sbRequestSent
  split
  · rename_i r hl
    split
    · rename_i ht
      have hw := inv_sbWF hi hl
      refine inv_putSb hi (inv_running_of_sb hi hl) ?_
      obtain ⟨a1, a2, a3, a4, a5, a6, a7, a8, a9⟩ := hw
      refine ⟨a1, a2, a3, a4, a5, by simp [SbRec.awaiting], by simp [SbRec.awaiting], by simp [SbRec.awaiting, Timer.isArmed], ?_⟩
      rw [ht] at a9; simpa [SbRec.awaiting] using a9
    · exact hi
  · exact hi
theorem inv_sbStatusSent (hi : s.Inv) (a) : (s.sbStatusSent a).Inv := by
  unfold State.sbStatusSent
  split
  · rename_i r hl
    split
    · rename_i ht
      have hw := inv_sbWF hi hl
      refine inv_putSb hi (inv_running_of_sb hi hl) ?_
      obtain ⟨a1, a2, a3, a4, a5, a6, a7, a8, a9⟩ := hw
      refine ⟨a1, a2, a3, a4, a5, by simp [SbRec.awaiting], by simp [SbRec.awaiting], by simp [SbRec.awaiting, Timer.isArmed], ?_⟩
      rw [ht] at a9; simpa [SbRec.awaiting] using a9
    · exact hi
  · exact hi
theorem inv_sbAbortSent (hi : s.Inv) (a) : (s.sbAbortSent a).Inv := by
  unfold State.sbAbortSent
  split
  · rename_i r hl
    split
    · rename_i ht
      have hw := inv_sbWF hi hl
      refine inv_putSb hi (inv_running_of_sb hi hl) ?_
      obtain ⟨a1, a2, a3, a4, a5, a6, a7, a8, a9⟩ := hw
      refine ⟨a1, a2, a3, a4, a5, by simp [SbRec.awaiting], by simp [SbRec.awaiting], by simp [SbRec.awaiting, Timer.isArmed], ?_⟩
      rw [ht] at a9; simpa [SbRec.awaiting] using a9
    · exact hi
  · exact hi

theorem kept_sbTransferSent (hi : s.Inv) (a q) : Kept (s.sbTransferSent a q) := by
  unfold State.sbTransferSent
  split
  · rename_i r hl
    split
    · rename_i h
      have hw := inv_sbWF hi hl
      have hle := sbWF_le hw
      rw [setBit_ok (by omega)]
      simp only [checked]
      have hv : isValid (withBitSet r.bitmap q.toNat) r.blocks.toNat = true := isValid_withBitSet hw.2.2.2.2.1 h.2
      have hw2 : SbRec.WF { r with bitmap := withBitSet r.bitmap q.toNat } := by
        obtain ⟨a1, a2, a3, a4, a5, a6⟩ := hw
        exact ⟨a1, a2, a3, a4, hv, a6⟩
      rcases firstClear_cases (isValid_le hv) with ⟨hf, _⟩ | ⟨k, hk, hf, _⟩
      · rw [hf]
        refine kept (inv_putSb hi (inv_running_of_sb hi hl) ?_)
        obtain ⟨a1, a2, a3, a4, a5, a6, a7, a8, a9⟩ := hw2
        rw [h.1] at a6
        exact ⟨a1, a2, a3, a4, a5, by simpa using a6, by simp, a8, by simp [Timer.isArmed]⟩
      · rw [hf]
        refine kept_sbSendTransfer hi (inv_running_of_sb hi hl) (sbWF_inside (r := r) hw hk) ?_
        have : ({ r with bitmap := withBitSet r.bitmap q.toNat, tx := SbTx.sendingData } : SbRec) = { r with bitmap := withBitSet r.bitmap q.toNat } := by rw [← h.1]
        rw [this]; exact hw2
    · exact kept hi
  · exact kept hi

theorem inv_sbFrameError (hi : s.Inv) (a tx k) : (s.sbFrameError a tx k).Inv := by
  unfold State.sbFrameError
  split
  · split
    · exact inv_endTransfer hi _ _
    · exact hi
  · exact hi

theorem kept_sbOnAck (hi : s.Inv) (a n d) : Kept (s.sbOnAck a n d) := by
  unfold State.sbOnAck
  split
  · rename_i r hl
    have hw := inv_sbWF hi hl
    split
    · rename_i hx
      split
      · exact kept_sbSendTransfer hi (inv_running_of_sb hi hl) (by simp) (sbWF_resend hw (by simp [hx]) (by simp) (by simp) (by simp))
      · exact kept hi
    · split
      · rw [successPath_ok (sbWF_le hw)]
        simp only [checked]
        split <;> exact kept (inv_endTransfer hi _ _)
      · exact kept hi
    · exact kept hi
    · exact kept hi
  · exact kept hi

theorem kept_sbOnNack (hi : s.Inv) (a n d) : Kept (s.sbOnNack a n d) := by
  unfold State.sbOnNack
  split
  · rename_i r hl
    have hw := inv_sbWF hi hl
    split
    · rename_i hx; exact kept (inv_sbRetryRequest hi hl (by simp [hx]))
    · rename_i hx; exact kept (inv_sbRetryStatus hi hl (by simp [hx]))
    · split
      · rw [successPath_ok (sbWF_le hw)]
        exact kept (inv_endTransfer hi _ _)
      · exact kept hi
    · exact kept hi
  · exact kept hi

theorem kept_sbOnReport (hi : s.Inv) (a dn d) : Kept (s.sbOnReport a dn d) := by
  unfold State.sbOnReport
  split
  · rename_i r hl
    have hw := inv_sbWF hi hl
    have hr := inv_running_of_sb hi hl
    split
    · rename_i hx
      rw [reportValid_ok]
      simp only [checked, decide_eq_true_eq]
      split
      · rename_i hv
        have hle := isValid_le hv.1
        have hx' : r.rx ≠ .idle := by simp [hx]
        have hgen : ∀ tx, tx ≠ SbTx.idle → tx ≠ .sendingStart → tx ≠ .waitingForSendStatusRequest → SbRec.WF { r with wd := .idle, rx := .idle, bitmap := d, done := dn, tx := tx } := by
          intro tx h1 h2 h3
          have := sbWF_resend hw hx' h1 h2 h3
          obtain ⟨a1, a2, a3, a4, a5, a6⟩ := this
          exact ⟨a1, a2, a3, a4, hv.1, a6⟩
        unfold State.sbReportBranch
        rcases firstClear_cases hle with ⟨hf, _⟩ | ⟨k, hk, hf, _⟩
        · simp only [hf, checked]
          split
          · exact kept (inv_sbHandOff hi hr (by simp [sbAbortFrame, sbFrame]) (hgen _ (by simp) (by simp) (by simp)))
          · split
            · exact kept (inv_sbHandOff hi hr (by simp [sbAbortFrame, sbFrame]) (hgen _ (by simp) (by simp) (by simp)))
            · refine kept (inv_putSb hi hr ?_)
              obtain ⟨a1, a2, a3, a4, a5, a6, a7, a8, a9⟩ := hgen .sendingData (by simp) (by simp) (by simp)
              exact ⟨a1, a2, a3, a4, a5, by simp, by simp, a8, by simp [Timer.isArmed]⟩
        · simp only [hf, checked]
          split
          · exact kept (inv_sbHandOff hi hr (by simp [sbAbortFrame, sbFrame]) (hgen _ (by simp) (by simp) (by simp)))
          · split
            · exact kept (inv_sbHandOff hi hr (by simp [sbAbortFrame, sbFrame]) (hgen _ (by simp) (by simp) (by simp)))
            · exact kept_sbSendTransfer hi hr (sbWF_inside (r := r) hw hk) (hgen .sendingData (by simp) (by simp) (by simp))
      · exact kept hi
    · exact kept hi
  · exact kept hi

/-! ### Get block -/

theorem gbWF_resend {p : Params} {r : GbRec} (hw : r.WF p) {tx : GbTx} (h1 : tx ≠ .idle) (h2 : tx ≠ .sendingAbort) :
    GbRec.WF p { r with wd := .idle, rx := .idle, tx := tx } := by
  obtain ⟨a1, a2, a3, a4, a5, _⟩ := hw
  exact ⟨a1, a2, a3, a4, a5, by simp [h1], by simp [Timer.isArmed], by simp, by simp [h2]⟩

theorem gbWF_bitmap_length {p : Params} {r : GbRec} (hw : r.WF p) : r.bitmap.length ≤ 8 := by
  have := (isValid_iff.1 hw.2.2.2.1).1
  have := hw.2.2.1.2
  unfold bmSize ceilDiv8 at *
  omega

theorem inv_gbRetryRequest (hi : s.Inv) {a : Byte} {r : GbRec} (hl : s.lookupGb a = some r) :
    (s.gbRetryRequest { r with wd := .idle, rx := .idle }).Inv := by
  have hw := inv_gbWF hi hl
  unfold State.gbRetryRequest; split
  · exact inv_endTransfer hi _ _
  · exact inv_gbHandOff hi (inv_running_of_gb hi hl) hw.2.1.2 (gbWF_resend hw (by simp) (by simp))
theorem inv_gbSendStart (hi : s.Inv) {a : Byte} {r : GbRec} (hl : s.lookupGb a = some r) :
    (s.gbSendStart { r with wd := .idle, rx := .idle }).Inv := by
  have hw := inv_gbWF hi hl
  exact inv_gbHandOff hi (inv_running_of_gb hi hl) (gbWF_bitmap_length hw) (gbWF_resend hw (by simp) (by simp))
theorem inv_gbRetryStart (hi : s.Inv) {a : Byte} {r : GbRec} (hl : s.lookupGb a = some r) :
    (s.gbRetryStart { r with wd := .idle, rx := .idle }).Inv := by
  unfold State.gbRetryStart; split
  · exact inv_endTransfer hi _ _
  · exact inv_gbSendStart hi hl
theorem inv_gbRetryAbort (hi : s.Inv) {a : Byte} {r : GbRec} (hl : s.lookupGb a = some r)
    (hx : r.rx = .waitingForAbortAck) :
    (s.gbRetryAbort { r with wd := .idle, rx := .idle }).Inv := by
  have hw := inv_gbWF hi hl
  unfold State.gbRetryAbort; split
  · exact inv_endTransfer hi _ _
  · refine inv_gbHandOff hi (inv_running_of_gb hi hl) (by simp [gbAbortFrame, gbFrame]) ?_
    obtain ⟨a1, a2, a3, a4, a5, _, _, _, a9⟩ := hw
    exact ⟨a1, a2, a3, a4, a5, by simp, by simp [Timer.isArmed], by simp, fun _ => a9 (.inr hx)⟩

theorem inv_gbRequestSent (hi : s.Inv) (a) : (s.gbRequestSent a).Inv := by
  unfold State.gbRequestSent
  split
  · rename_i r hl
    split
    · refine inv_putGb hi (inv_running_of_gb hi hl) ?_
      obtain ⟨a1, a2, a3, a4, a5, _⟩ := inv_gbWF hi hl
      exact ⟨a1, a2, a3, a4, a5, by simp, by simp, by simp [Timer.isArmed], by simp⟩
    · exact hi
  · exact hi
theorem inv_gbStartSent (hi : s.Inv) (a) : (s.gbStartSent a).Inv := by
  unfold State.gbStartSent
  split
  · rename_i r hl
    split
    · refine inv_putGb hi (inv_running_of_gb hi hl) ?_
      obtain ⟨a1, a2, a3, a4, a5, _⟩ := inv_gbWF hi hl
      exact ⟨a1, a2, a3, a4, a5, by simp, by simp, by simp [Timer.isArmed], by simp⟩
    · exact hi
  · exact hi
theorem inv_gbAbortSent (hi : s.Inv) (a) : (s.gbAbortSent a).Inv := by
  unfold State.gbAbortSent
  split
  · rename_i r hl
    split
    · rename_i ht
      refine inv_putGb hi (inv_running_of_gb hi hl) ?_
      obtain ⟨a1, a2, a3, a4, a5, _, _, _, a9⟩ := inv_gbWF hi hl
      exact ⟨a1, a2, a3, a4, a5, by simp, by simp, by simp [Timer.isArmed], fun _ => a9 (.inl ht)⟩
    · exact hi
  · exact hi
theorem inv_gbFrameError (hi : s.Inv) (a tx k) : (s.gbFrameError a tx k).Inv := by
  unfold State.gbFrameError
  split
  · split
    · exact inv_endTransfer hi _ _
    · exact hi
  · exact hi
theorem inv_gbOnAck (hi : s.Inv) (a n d) : (s.gbOnAck a n d).Inv := by
  unfold State.gbOnAck
  split
  · rename_i r hl
    split
    · split
      · exact inv_gbSendStart hi hl
      · exact hi
    · split
      · split <;> exact inv_endTransfer hi _ _
      · exact hi
    · exact hi
    · exact hi
  · exact hi
theorem inv_gbOnNack (hi : s.Inv) (a n d) : (s.gbOnNack a n d).Inv := by
  unfold State.gbOnNack
  split
  · rename_i r hl
    split
    · exact inv_gbRetryRequest hi hl
    · exact inv_gbRetryStart hi hl
    · split
      · exact inv_endTransfer hi _ _
      · exact hi
    · exact hi
  · exact hi
theorem kept_gbOnTransfer (hi : s.Inv) (a q d) : Kept (s.gbOnTransfer a q d) := by
  unfold State.gbOnTransfer
  split
  · rename_i r hl
    have hw := inv_gbWF hi hl
    have hr := inv_running_of_gb hi hl
    have hle := gbWF_le hw
    split
    · rename_i h
      rw [isBitSet_ok (by omega)]
      simp only [checked]
      split
      · rw [clearBit_ok (by omega)]
        simp only
        have hwr : 8 * q.toNat + d.length ≤ r.data.length := by rw [hw.2.2.2.2.1]; omega
        rw [memWrite_ok hwr]
        simp only [State.gbAfterTransfer]
        have hv : isValid (withBitClear r.bitmap q.toNat) r.blocks.toNat = true := isValid_withBitClear hw.2.2.2.1
        have hdl : (r.data.take (8 * q.toNat) ++ d ++ r.data.drop (8 * q.toNat + d.length)).length = 8 * r.blocks.toNat := by
          rw [← hw.2.2.2.2.1]; simp; omega
        rw [allCleared_ok (by simpa using hle)]
        simp only [checked, decide_eq_true_eq]
        split
        · rename_i hall
          refine kept (inv_gbHandOff hi hr (by simp [gbAbortFrame, gbFrame]) ?_)
          obtain ⟨a1, a2, a3, a4, a5, _⟩ := hw
          exact ⟨a1, a2, a3, hv, hdl, by simp, by simp [Timer.isArmed], by simp, fun _ => hall⟩
        · refine kept (inv_putGb hi hr ?_)
          obtain ⟨a1, a2, a3, a4, a5, a6, a7, a8, a9⟩ := hw
          refine ⟨a1, a2, a3, hv, hdl, a6, ?_, ?_, ?_⟩
          · intro _; simp [h.1]
          · intro _
            cases hp : s.params.gbDataWatchdog
            · left; rfl
            · right; exact ⟨rfl, h.1⟩
          · have := a6.2 (by simp [h.1])
            simp [h.1, this]
      · exact kept hi
    · exact kept hi
  · exact kept hi

end Sys2Proof.Machine
end

