-- ==== Sys2Proof/Laws/Numbers.lean ====
section
/-! SUPPORT. Numbers as bytes: the little-endian image and its value (R80), and the trimmed start address (R240). -/

namespace Sys2Proof.Machine

/-- `trimZeros` drops zero bytes at the end and only those (R240). -/
theorem trimZeros_spec (l : List Byte) :
    trimZeros l <+: l ∧ (∀ k, (trimZeros l).length ≤ k → l.getD k 0 = 0) ∧
      (∀ h : trimZeros l ≠ [], (trimZeros l).getLast h ≠ 0) := by
  induction l with
  | nil => simp [trimZeros]
  | cons b bs ih =>
    obtain ⟨i1, i2, i3⟩ := ih
    rcases hz : trimZeros bs with _ | ⟨x, xs⟩
    · rw [hz] at i1 i2
      by_cases hb : b = 0
      · have e : trimZeros (b :: bs) = [] := by simp [trimZeros, hz, hb]
        rw [e]
        refine ⟨by simp, fun k _ => ?_, by simp⟩
        cases k with
        | zero => simpa using hb
        | succ k => simpa using i2 k (by simp)
      · have e : trimZeros (b :: bs) = [b] := by simp only [trimZeros, hz, hb, if_false]
        rw [e]
        refine ⟨by simp, fun k hk => ?_, by simpa using hb⟩
        cases k with
        | zero => simp at hk
        | succ k => simpa using i2 k (by simp)
    · have e : trimZeros (b :: bs) = b :: trimZeros bs := by simp [trimZeros, hz]
      have hne : trimZeros bs ≠ [] := by simp [hz]
      rw [e]
      refine ⟨by simpa using i1, fun k hk => ?_, fun _ => ?_⟩
      · cases k with
        | zero => simp at hk
        | succ k => simpa using i2 k (by simpa using hk)
      · rw [List.getLast_cons hne]; exact i3 hne

/-- The little-endian value of the little-endian image (R80). -/
theorem leValue_leBytes8 (v : Word64) : leValue (leBytes8 v) = v := by
  apply BitVec.eq_of_getLsbD_eq; intro i hi
  simp [leValue, leBytes8, List.range_succ, List.range_zero]
  interval_cases i <;> simp

theorem leValue_append_zeros (l z : List Byte) (h : ∀ b ∈ z, b = 0) : leValue (l ++ z) = leValue l := by
  have hz : leValue z = 0 := by
    induction z with
    | nil => rfl
    | cons b bs ih =>
      have hb := h b (by simp); subst hb
      have := ih (fun b hb => h b (by simp [hb]))
      simp [leValue] at *; simp [this]
  unfold leValue at *
  rw [List.foldr_append, hz]
theorem leBytes8_getD (v : Word64) (k : Nat) (hk : k < 8) : ((leBytes8 v).getD k 0).toNat = v.toNat / 256 ^ k % 256 := by
  simp only [leBytes8, List.getD_eq_getElem?_getD, List.getElem?_map, List.getElem?_range hk, Option.map_some, Option.getD_some, BitVec.extractLsb'_toNat, Nat.shiftRight_eq_div_pow]
  rw [show 2 ^ (8*k) = 256 ^ k by rw [Nat.pow_mul]]

@[simp] theorem leBytes8_length (v : Word64) : (leBytes8 v).length = 8 := by simp [leBytes8]

/-- A start address has 1 to 8 bytes (R240). -/
theorem encodeStart_length (v : Word64) : 1 ≤ (encodeStart v).length ∧ (encodeStart v).length ≤ 8 := by
  have hle : (trimZeros (leBytes8 v)).length ≤ 8 := by
    simpa using (trimZeros_spec (leBytes8 v)).1.length_le
  unfold encodeStart
  split
  · simp
  · rename_i h
    refine ⟨?_, hle⟩
    rcases hz : trimZeros (leBytes8 v) with _ | _
    · exact absurd hz h
    · simp

end Sys2Proof.Machine
end

