-- ==== Sys2Proof/Laws/PerInstr.lean ====
section
/-! SUPPORT. One statement about every constructor of `Instr`: what it encodes to, if it has an encoding (R110, R143). -/

namespace Sys2Proof.Laws

/-- An encoded instruction is an extended, non-RTR frame whose identifier fits 29 bits. -/
def EncodesExtended.Statement (i : Instr) : Prop :=
  ∀ c, encode i = some c → c.extid = true ∧ c.rtr = false ∧ c.id.toNat < 2 ^ 29

/-- Every frame the codec builds is one. -/
theorem encodeFrame_extended (f : LogicalFrame) :
    (encodeFrame f).extid = true ∧ (encodeFrame f).rtr = false ∧ (encodeFrame f).id.toNat < 2 ^ 29 :=
  ⟨rfl, rfl, encodeId_lt _ _ _ _⟩

theorem EncodesExtended.ofFrame {i : Instr} (f : LogicalFrame) (h : kindFrame i = some f) :
    EncodesExtended.Statement i := by
  intro c hc
  rw [encode, h] at hc
  obtain rfl : encodeFrame f = c := by simpa using hc
  exact encodeFrame_extended f

theorem EncodesExtended.ofNone {i : Instr} (h : kindFrame i = none) : EncodesExtended.Statement i := by
  intro c hc
  rw [encode, h] at hc
  simp at hc

theorem EncodesExtended.tcRequest (p : Port) (toAddr fromAddr ch : Byte) (data : List Byte) :
    EncodesExtended.Statement (.tcRequest p toAddr fromAddr ch data) := EncodesExtended.ofFrame _ rfl
theorem EncodesExtended.tcAck (p : Port) (toAddr fromAddr ch : Byte) (data : List Byte) :
    EncodesExtended.Statement (.tcAck p toAddr fromAddr ch data) := EncodesExtended.ofFrame _ rfl
theorem EncodesExtended.tcNack (p : Port) (toAddr fromAddr ch : Byte) (data : List Byte) :
    EncodesExtended.Statement (.tcNack p toAddr fromAddr ch data) := EncodesExtended.ofFrame _ rfl
theorem EncodesExtended.tcReservedFt3 (p : Port) (toAddr fromAddr ch : Byte) (data : List Byte) :
    EncodesExtended.Statement (.tcReservedFt3 p toAddr fromAddr ch data) := EncodesExtended.ofFrame _ rfl
theorem EncodesExtended.tmRequest (p : Port) (toAddr fromAddr ch : Byte) (data : List Byte) :
    EncodesExtended.Statement (.tmRequest p toAddr fromAddr ch data) := EncodesExtended.ofFrame _ rfl
theorem EncodesExtended.tmAck (p : Port) (toAddr fromAddr ch : Byte) (data : List Byte) :
    EncodesExtended.Statement (.tmAck p toAddr fromAddr ch data) := EncodesExtended.ofFrame _ rfl
theorem EncodesExtended.tmNack (p : Port) (toAddr fromAddr ch : Byte) (data : List Byte) :
    EncodesExtended.Statement (.tmNack p toAddr fromAddr ch data) := EncodesExtended.ofFrame _ rfl
theorem EncodesExtended.tmReservedFt3 (p : Port) (toAddr fromAddr ch : Byte) (data : List Byte) :
    EncodesExtended.Statement (.tmReservedFt3 p toAddr fromAddr ch data) := EncodesExtended.ofFrame _ rfl
theorem EncodesExtended.sbRequest (p : Port) (toAddr fromAddr : Byte) (num : Seq) (data : List Byte) :
    EncodesExtended.Statement (.sbRequest p toAddr fromAddr num data) := EncodesExtended.ofFrame _ rfl
theorem EncodesExtended.sbTransfer (p : Port) (toAddr fromAddr : Byte) (seq : Seq) (data : List Byte) :
    EncodesExtended.Statement (.sbTransfer p toAddr fromAddr seq data) := EncodesExtended.ofFrame _ rfl
theorem EncodesExtended.sbAck (p : Port) (toAddr fromAddr : Byte) (num : Seq) (data : List Byte) :
    EncodesExtended.Statement (.sbAck p toAddr fromAddr num data) := EncodesExtended.ofFrame _ rfl
theorem EncodesExtended.sbAbort (p : Port) (toAddr fromAddr : Byte) (num : Seq) (data : List Byte) :
    EncodesExtended.Statement (.sbAbort p toAddr fromAddr num data) := EncodesExtended.ofFrame _ rfl
theorem EncodesExtended.sbNack (p : Port) (toAddr fromAddr : Byte) (num : Seq) (data : List Byte) :
    EncodesExtended.Statement (.sbNack p toAddr fromAddr num data) := EncodesExtended.ofFrame _ rfl
theorem EncodesExtended.sbReservedFt5 (p : Port) (toAddr fromAddr : Byte) (num : Seq) (data : List Byte) :
    EncodesExtended.Statement (.sbReservedFt5 p toAddr fromAddr num data) := EncodesExtended.ofFrame _ rfl
theorem EncodesExtended.sbStatus (p : Port) (toAddr fromAddr : Byte) (num : Seq) (data : List Byte) :
    EncodesExtended.Statement (.sbStatus p toAddr fromAddr num data) := EncodesExtended.ofFrame _ rfl
theorem EncodesExtended.sbReport (p : Port) (toAddr fromAddr : Byte) (done : Bool) (num : Seq) (data : List Byte) :
    EncodesExtended.Statement (.sbReport p toAddr fromAddr done num data) := EncodesExtended.ofFrame _ rfl
theorem EncodesExtended.gbRequest (p : Port) (toAddr fromAddr : Byte) (num : Seq) (data : List Byte) :
    EncodesExtended.Statement (.gbRequest p toAddr fromAddr num data) := EncodesExtended.ofFrame _ rfl
theorem EncodesExtended.gbReservedFt1 (p : Port) (toAddr fromAddr : Byte) (num : Seq) (data : List Byte) :
    EncodesExtended.Statement (.gbReservedFt1 p toAddr fromAddr num data) := EncodesExtended.ofFrame _ rfl
theorem EncodesExtended.gbAck (p : Port) (toAddr fromAddr : Byte) (num : Seq) (data : List Byte) :
    EncodesExtended.Statement (.gbAck p toAddr fromAddr num data) := EncodesExtended.ofFrame _ rfl
theorem EncodesExtended.gbAbort (p : Port) (toAddr fromAddr : Byte) (num : Seq) (data : List Byte) :
    EncodesExtended.Statement (.gbAbort p toAddr fromAddr num data) := EncodesExtended.ofFrame _ rfl
theorem EncodesExtended.gbNack (p : Port) (toAddr fromAddr : Byte) (num : Seq) (data : List Byte) :
    EncodesExtended.Statement (.gbNack p toAddr fromAddr num data) := EncodesExtended.ofFrame _ rfl
theorem EncodesExtended.gbReservedFt5 (p : Port) (toAddr fromAddr : Byte) (num : Seq) (data : List Byte) :
    EncodesExtended.Statement (.gbReservedFt5 p toAddr fromAddr num data) := EncodesExtended.ofFrame _ rfl
theorem EncodesExtended.gbStart (p : Port) (toAddr fromAddr : Byte) (num : Seq) (data : List Byte) :
    EncodesExtended.Statement (.gbStart p toAddr fromAddr num data) := EncodesExtended.ofFrame _ rfl
theorem EncodesExtended.gbTransfer (p : Port) (toAddr fromAddr : Byte) (seq : Seq) (data : List Byte) :
    EncodesExtended.Statement (.gbTransfer p toAddr fromAddr seq data) := EncodesExtended.ofFrame _ rfl
theorem EncodesExtended.unsol (p : Port) (toAddr fromAddr ch : Byte) (data : List Byte) :
    EncodesExtended.Statement (.unsol p toAddr fromAddr ch data) := EncodesExtended.ofFrame _ rfl
theorem EncodesExtended.keepalive (p : Port) (fromAddr ch : Byte) (data : List Byte) :
    EncodesExtended.Statement (.keepalive p fromAddr ch data) := EncodesExtended.ofFrame _ rfl
theorem EncodesExtended.timesync (p : Port) (fromAddr : Byte) (data : List Byte) :
    EncodesExtended.Statement (.timesync p fromAddr data) := EncodesExtended.ofFrame _ rfl
theorem EncodesExtended.type6Reserved (p : Port) (toAddr fromAddr : Byte) (data : List Byte) :
    EncodesExtended.Statement (.type6Reserved p toAddr fromAddr data) := EncodesExtended.ofFrame _ rfl
theorem EncodesExtended.type7Reserved (p : Port) (toAddr fromAddr : Byte) (data : List Byte) :
    EncodesExtended.Statement (.type7Reserved p toAddr fromAddr data) := EncodesExtended.ofFrame _ rfl
theorem EncodesExtended.start (addr : Byte) (timeoutMs : Word32) (settings : Settings) :
    EncodesExtended.Statement (.start addr timeoutMs settings) := EncodesExtended.ofNone rfl
theorem EncodesExtended.stop :
    EncodesExtended.Statement (.stop) := EncodesExtended.ofNone rfl
theorem EncodesExtended.sendTc (addr ch : Byte) (data : List Byte) (retry : Byte) :
    EncodesExtended.Statement (.sendTc addr ch data retry) := EncodesExtended.ofNone rfl
theorem EncodesExtended.receiveTm (addr ch retry : Byte) :
    EncodesExtended.Statement (.receiveTm addr ch retry) := EncodesExtended.ofNone rfl
theorem EncodesExtended.sendBlock (addr : Byte) (startAddress : Word64) (data : List Byte) (retry : Byte) (reportDelayMs : Word32) (reportRetry : Byte) :
    EncodesExtended.Statement (.sendBlock addr startAddress data retry reportDelayMs reportRetry) := EncodesExtended.ofNone rfl
theorem EncodesExtended.receiveBlock (addr : Byte) (startAddress : Word64) (length : Nat) (retry startRetry : Byte) :
    EncodesExtended.Statement (.receiveBlock addr startAddress length retry startRetry) := EncodesExtended.ofNone rfl
theorem EncodesExtended.sendTimeSync (time : Word64) :
    EncodesExtended.Statement (.sendTimeSync time) := EncodesExtended.ofNone rfl
theorem EncodesExtended.sendUnsolicited (addr ch : Byte) (data : List Byte) :
    EncodesExtended.Statement (.sendUnsolicited addr ch data) := EncodesExtended.ofNone rfl
theorem EncodesExtended.canBusSwitch :
    EncodesExtended.Statement (.canBusSwitch) := EncodesExtended.ofNone rfl
theorem EncodesExtended.getActiveBus :
    EncodesExtended.Statement (.getActiveBus) := EncodesExtended.ofNone rfl
theorem EncodesExtended.getAddress :
    EncodesExtended.Statement (.getAddress) := EncodesExtended.ofNone rfl
theorem EncodesExtended.frameReceived (bus : Bus) (frame : CanFrame) :
    EncodesExtended.Statement (.frameReceived bus frame) := EncodesExtended.ofNone rfl
theorem EncodesExtended.frameSent (bus : Bus) (frame : CanFrame) :
    EncodesExtended.Statement (.frameSent bus frame) := EncodesExtended.ofNone rfl
theorem EncodesExtended.sendError (bus : Bus) (frame : CanFrame) (reason : SendErrorReason) :
    EncodesExtended.Statement (.sendError bus frame reason) := EncodesExtended.ofNone rfl
theorem EncodesExtended.wdFireTc (addr ch : Byte) :
    EncodesExtended.Statement (.wdFireTc addr ch) := EncodesExtended.ofNone rfl
theorem EncodesExtended.wdFireTm (addr ch : Byte) :
    EncodesExtended.Statement (.wdFireTm addr ch) := EncodesExtended.ofNone rfl
theorem EncodesExtended.wdFireSb (addr : Byte) :
    EncodesExtended.Statement (.wdFireSb addr) := EncodesExtended.ofNone rfl
theorem EncodesExtended.wdFireGb (addr : Byte) :
    EncodesExtended.Statement (.wdFireGb addr) := EncodesExtended.ofNone rfl
theorem EncodesExtended.rdFireSb (addr : Byte) :
    EncodesExtended.Statement (.rdFireSb addr) := EncodesExtended.ofNone rfl

end Sys2Proof.Laws
end

