-- ==== Sys2Proof/Tests/Slice0.lean ====
section
/-! SUPPORT. Tests: ill-formed terms the check refuses, words decoded by hand, single steps from the vectors of
spec/95_test_vectors.md (`V<n>`), and for each statement with hypotheses a state and operands that meet them. -/

namespace Sys2Proof.Tests

open Sys2Proof Sys2Proof.Machine

/-! ### Well-formedness: one ill-formed term for each check -/

def nine : List Byte := [0, 1, 2, 3, 4, 5, 6, 7, 8]
def eight : List Byte := [0, 1, 2, 3, 4, 5, 6, 7]
def rxN : Port := ⟨.nominal, .received⟩
def txN : Port := ⟨.nominal, .sent⟩

theorem test_wf_long_tt : (([Instr.tcRequest rxN 0 0 0 nine, .tcAck rxN 0 0 0 nine, .tcNack rxN 0 0 0 nine,
    .tcReservedFt3 rxN 0 0 0 nine, .tmRequest rxN 0 0 0 nine, .tmAck rxN 0 0 0 nine, .tmNack rxN 0 0 0 nine,
    .tmReservedFt3 rxN 0 0 0 nine]).any Instr.wellFormed) = false := by decide
theorem test_wf_long_sb : (([Instr.sbRequest rxN 0 0 0 nine, .sbTransfer rxN 0 0 0 nine, .sbAck rxN 0 0 0 nine,
    .sbAbort rxN 0 0 0 nine, .sbNack rxN 0 0 0 nine, .sbReservedFt5 rxN 0 0 0 nine, .sbStatus rxN 0 0 0 nine,
    .sbReport rxN 0 0 true 0 nine]).any Instr.wellFormed) = false := by decide
theorem test_wf_long_gb : (([Instr.gbRequest rxN 0 0 0 nine, .gbReservedFt1 rxN 0 0 0 nine, .gbAck rxN 0 0 0 nine,
    .gbAbort rxN 0 0 0 nine, .gbNack rxN 0 0 0 nine, .gbReservedFt5 rxN 0 0 0 nine, .gbStart rxN 0 0 0 nine,
    .gbTransfer rxN 0 0 0 nine]).any Instr.wellFormed) = false := by decide
theorem test_wf_long_other : (([Instr.unsol rxN 0x20 0 0 nine, .keepalive rxN 0 0 nine, .timesync rxN 0 nine,
    .type6Reserved rxN 0 0 nine, .type7Reserved rxN 0 0 nine]).any Instr.wellFormed) = false := by decide
/-- An UNSOL to 0x01 is a KEEPALIVE (R121 (a)). -/
theorem test_wf_unsol_to_keepalive : (Instr.unsol rxN 0x01 0x20 0 []).wellFormed = false := by decide
theorem test_wf_long_notification : (([Instr.frameReceived .nominal ⟨0, true, false, nine⟩,
    .frameSent .nominal ⟨0, true, false, nine⟩, .sendError .nominal ⟨0, true, false, nine⟩ .writeError]).any
      Instr.wellFormed) = false := by decide
theorem test_wf_eight_bytes : (Instr.tcRequest rxN 0x20 0x10 0 eight).wellFormed = true := by decide

/-! ### Words written out from the formats of R111, R112 and R121

An identifier is `to` (8 bits), `type` (3), `from` (8), command (10). With `to = 0x10 = 00010000` and
`from = 0x20 = 00100000` the bits 28:10 read `00010000 ttt 00100000`. -/

def word (id : Nat) (data : List Byte) : CanFrame := ⟨BitVec.ofNat 32 id, true, false, data⟩

/-- Type 010, command `ff cccccccc`: to 0x20 from 0x10, channel 0xFF (V121), then codes 1, 2, 3. -/
theorem test_decode_tc : decode rxN (word 0x040840FF [1]) = .ok (.tcRequest rxN 0x20 0x10 0xFF [1]) ∧
    decode rxN (word 0b00010000010001000000100000101 []) = .ok (.tcAck rxN 0x10 0x20 0x05 []) ∧
    decode rxN (word 0b00010000010001000001010000000 []) = .ok (.tcNack rxN 0x10 0x20 0x80 []) ∧
    decode rxN (word 0b00010000010001000001100000000 [9]) = .ok (.tcReservedFt3 rxN 0x10 0x20 0x00 [9]) := by decide
/-- Type 011 (V140 to V142). -/
theorem test_decode_tm : decode rxN (word 0x040C4007 []) = .ok (.tmRequest rxN 0x20 0x10 0x07 []) ∧
    decode rxN (word 0x020C8107 [0xDE, 0xAD]) = .ok (.tmAck rxN 0x10 0x20 0x07 [0xDE, 0xAD]) ∧
    decode rxN (word 0x020C8207 []) = .ok (.tmNack rxN 0x10 0x20 0x07 []) ∧
    decode rxN (word 0b00010000011001000001100000111 []) = .ok (.tmReservedFt3 rxN 0x10 0x20 0x07 []) := by decide
/-- Type 100, command `fff d ssssss` (V150 to V174); code 5 from R132. -/
theorem test_decode_sb : decode rxN (word 0x04104001 [0x34, 0x12]) = .ok (.sbRequest rxN 0x20 0x10 1 [0x34, 0x12]) ∧
    decode rxN (word 0x041040BF [7]) = .ok (.sbTransfer rxN 0x20 0x10 63 [7]) ∧
    decode rxN (word 0x02108101 [0x34, 0x12]) = .ok (.sbAck rxN 0x10 0x20 1 [0x34, 0x12]) ∧
    decode rxN (word 0x04104180 []) = .ok (.sbAbort rxN 0x20 0x10 0 []) ∧
    decode rxN (word 0x02108200 [9]) = .ok (.sbNack rxN 0x10 0x20 0 [9]) ∧
    decode rxN (word 0b00010000100001000001010000011 []) = .ok (.sbReservedFt5 rxN 0x10 0x20 3 []) ∧
    decode rxN (word 0x04104300 []) = .ok (.sbStatus rxN 0x20 0x10 0 []) ∧
    decode rxN (word 0x021083C5 [3]) = .ok (.sbReport rxN 0x10 0x20 true 5 [3]) ∧
    decode rxN (word 0x02108380 [1]) = .ok (.sbReport rxN 0x10 0x20 false 0 [1]) := by decide
/-- Type 101 (V200 to V220); codes 1 and 5 from R132. -/
theorem test_decode_gb : decode rxN (word 0x0414403F [5]) = .ok (.gbRequest rxN 0x20 0x10 63 [5]) ∧
    decode rxN (word 0b00010000101001000000010000010 []) = .ok (.gbReservedFt1 rxN 0x10 0x20 2 []) ∧
    decode rxN (word 0x02148101 [5]) = .ok (.gbAck rxN 0x10 0x20 1 [5]) ∧
    decode rxN (word 0x04144180 []) = .ok (.gbAbort rxN 0x20 0x10 0 []) ∧
    decode rxN (word 0x02148200 []) = .ok (.gbNack rxN 0x10 0x20 0 []) ∧
    decode rxN (word 0b00010000101001000001010000001 []) = .ok (.gbReservedFt5 rxN 0x10 0x20 1 []) ∧
    decode rxN (word 0x04144300 [3]) = .ok (.gbStart rxN 0x20 0x10 0 [3]) ∧
    decode rxN (word 0x021483C0 eight) = .ok (.gbTransfer rxN 0x10 0x20 0 eight) := by decide
/-- Types 001, 000, 110 and 111 (V244, V105, V240, V17). -/
theorem test_decode_other : decode rxN (word 0x04044003 []) = .ok (.unsol rxN 0x20 0x10 3 []) ∧
    decode rxN (word 0x00248000 []) = .ok (.keepalive rxN 0x20 0 []) ∧
    decode rxN (word 0x00004000 [8, 7, 6, 5, 4, 3, 2, 1]) = .ok (.timesync rxN 0x10 [8, 7, 6, 5, 4, 3, 2, 1]) ∧
    decode rxN (word 0x02188000 []) = .ok (.type6Reserved rxN 0x10 0x20 []) ∧
    decode rxN (word 0b00010000111001000000000000000 []) = .ok (.type7Reserved rxN 0x10 0x20 []) := by decide
/-- R136 (V15, V16) and R121 (c). -/
theorem test_decode_refuses : decode rxN ⟨0x02088100, false, false, []⟩ = .error .standardIdentifier ∧
    decode rxN ⟨0x02088100, true, true, []⟩ = .error .remoteFrame ∧
    decode rxN (word 0x02000000 []) = .error .noFrameKind := by decide
/-- The engine's own frames, as V120, V150, V200, V205, V240 and V245 write them. -/
theorem test_encode_words :
    (encode (.tcRequest txN 0x20 0x10 0 [1])).map CanFrame.id = some 0x04084000 ∧
    (encode (.sbRequest txN 0x20 0x10 1 [0x34, 0x12])).map CanFrame.id = some 0x04104001 ∧
    (encode (.gbRequest txN 0x20 0x10 1 [5])).map CanFrame.id = some 0x04144001 ∧
    (encode (.gbStart txN 0x20 0x10 0 [3])).map CanFrame.id = some 0x04144300 ∧
    (encode (.timesync txN 0x10 [])).map CanFrame.id = some 0x00004000 ∧
    (encode (.keepalive txN 0x10 0 [])).map CanFrame.id = some 0x00244000 := by decide
/-- Host commands and input events have no encoding (R143). -/
theorem test_encode_none : encode .stop = none ∧ encode (.wdFireSb 0) = none := by decide

/-- The examples of R268: padding set, too long, too short, a full byte, two bytes. -/
theorem test_is_valid : [isValid [0x03] 2, isValid [0x07] 2, isValid [0x03, 0x00] 2, isValid [] 2, isValid [0xFF] 8,
    isValid [0xFF, 0x01] 9, isValid [0xFF, 0x03] 9, isValid [] 0] = [true, false, false, false, true, true, false, true] := by
  decide

/-- The key of a confirmed frame is its target's, of a received one its sender's (R298, R299). -/
theorem test_keys :
    touches (.frameSent .nominal (word 0x040840FF [1])) = some (.tc 0x20 0xFF) ∧
    touches (.frameReceived .nominal (word 0x020C8107 [])) = some (.tm 0x20 0x07) ∧
    touches (.sendError .nominal (word 0x04104001 []) .writeError) = some (.sb 0x20) ∧
    touches (.frameReceived .nominal (word 0x02148101 [5])) = some (.gb 0x20) ∧
    touches (.frameReceived .nominal (word 0x00248000 [])) = none := by decide

/-! ### Test states -/

def openLink (answers : List Bool) : Link :=
  { state := .opened { portName := "COM1", baud := 1000000 }, inFlight := [], answers := answers, asked := 0 }

/-- The engine after the vectors' Start, whose Nominal driver answers `answer` to the next send. -/
def running (answer : Bool) : State :=
  { State.reset with running := true, address := 0x10, timeoutMs := 100, nominal := openLink [answer],
                     redundant := openLink [true] }

def live : State := running true

/-- The engine at reset whose drivers will answer `a` and `b`. -/
def stopped (a b : Bool) : State :=
  { State.reset with nominal := { Link.reset with answers := [a] }, redundant := { Link.reset with answers := [b] } }

def tcRec (tx : TtTx) (rx : TtRx) (count max : Byte) : TcRec :=
  { address := 0x20, channel := 0, data := [1], retryCount := count, maxRetries := max, tx := tx, rx := rx,
    wd := if rx = .idle then .idle else .armed 100 }
def tmRec (tx : TtTx) (rx : TtRx) (count max : Byte) : TmRec :=
  { address := 0x20, channel := 7, retryCount := count, maxRetries := max, tx := tx, rx := rx,
    wd := if rx = .idle then .idle else .armed 100 }
/-- The record of `SendBlock(0x20, 0x1234, [00 .. 09])`. -/
def sbRec (tx : SbTx) (rx : BlkRx) (bitmap : List Byte) : SbRec :=
  { address := 0x20, start := [0x34, 0x12], data := [0, 1, 2, 3, 4, 5, 6, 7, 8, 9], blocks := 2, bitmap := bitmap,
    done := false, retryCount := 1, maxRetries := 3, reportRetryCount := 0, maxReportRetries := 3, reportDelayMs := 20,
    tx := tx, rx := rx, wd := if rx = .idle then .idle else .armed 100,
    rd := if tx = .waitingForSendStatusRequest then .armed 20 else .idle }
/-- The record of `ReceiveBlock(0x20, 0x05, 2)`. -/
def gbRec (tx : GbTx) (rx : BlkRx) (bitmap : List Byte) : GbRec :=
  { address := 0x20, start := [0x05], blocks := 2, bitmap := bitmap, data := List.replicate 16 0, retryCount := 1,
    maxRetries := 3, startRetryCount := 1, maxStartRetries := 3, tx := tx, rx := rx,
    wd := if rx = .idle then .idle else .armed 100 }

def tcS : State := live.putTc (tcRec .sendingRequest .idle 0 3)
def tcW : State := live.putTc (tcRec .idle .waitingForRequestAck 1 3)
def tmS : State := live.putTm (tmRec .sendingRequest .idle 0 3)
def tmW : State := live.putTm (tmRec .idle .waitingForRequestAck 1 3)
def sbAt (tx : SbTx) (rx : BlkRx) (bitmap : List Byte) : State := live.putSb (sbRec tx rx bitmap)
def gbAt (tx : GbTx) (rx : BlkRx) (bitmap : List Byte) : State := live.putGb (gbRec tx rx bitmap)

/-- The next state of a result; a stop gives the reset state. -/
def post (r : Result) : State :=
  match r with
  | .next t => t
  | .fault _ => State.reset
  | .refused _ => State.reset

def ids (s : State) : List Word32 := s.nominal.inFlight.map CanFrame.id
def outs (s : State) : List HostOut := s.out

/-! ### Telecommand and telemetry -/

/-- V120. -/
theorem test_sendTc : (post (exec (.sendTc 0x20 0 [1] 0) live)).tc = [tcRec .sendingRequest .idle 0 0] ∧
    ids (post (exec (.sendTc 0x20 0 [1] 0) live)) = [0x04084000] := by decide
/-- V125. -/
theorem test_sendTc_refused : outs (post (exec (.sendTc 0x20 0 [1] 0) (running false))) =
    [.event (.sendTcFailed 0x20 0 .sendRequestFailed), .result (.bool false)] := by decide
/-- V126. -/
theorem test_tcRequest_sent : (post (exec (.tcRequest txN 0x20 0x10 0 [1]) tcS)).tc =
    [tcRec .idle .waitingForRequestAck 1 3] := by decide
/-- V128, V129. -/
theorem test_tcAck : (post (exec (.tcAck rxN 0x10 0x20 0 []) tcS)).tc = tcS.tc ∧
    outs (post (exec (.tcAck rxN 0x10 0x20 0 []) tcW)) = [.event (.sendTcCompleted 0x20 0)] := by decide
/-- V132. -/
theorem test_tcNack : (post (exec (.tcNack rxN 0x10 0x20 0 []) tcW)).tc = [tcRec .sendingRequest .idle 1 3] ∧
    ids (post (exec (.tcNack rxN 0x10 0x20 0 []) tcW)) = [0x04084000] := by decide
/-- V133: the guard comes before the send. -/
theorem test_tcNack_spent :
    outs (post (exec (.tcNack rxN 0x10 0x20 0 []) (live.putTc (tcRec .idle .waitingForRequestAck 1 0)))) =
      [.event (.sendTcFailed 0x20 0 .maxRetriesReached)] := by decide
/-- R131. -/
theorem test_tcReservedFt3 : exec (.tcReservedFt3 rxN 0x10 0x20 0 []) tcW = .next tcW := rfl
/-- V135. -/
theorem test_wdFireTc : (post (exec (.wdFireTc 0x20 0) tcW)).tc = [tcRec .sendingRequest .idle 1 3] := by decide
/-- V140. -/
theorem test_receiveTm : (post (exec (.receiveTm 0x20 7 3) live)).tm = [tmRec .sendingRequest .idle 0 3] ∧
    ids (post (exec (.receiveTm 0x20 7 3) live)) = [0x040C4007] := by decide
/-- R357. -/
theorem test_tmRequest_error : outs (post (exec (.tmRequest ⟨.nominal, .sendError .dongleBusy⟩ 0x20 0x10 7 []) tmS)) =
    [.event (.receiveTmFailed 0x20 7 .sendRequestFailed)] := by decide
/-- V141. -/
theorem test_tmAck : outs (post (exec (.tmAck rxN 0x10 0x20 7 [0xDE, 0xAD]) tmW)) =
    [.event (.receiveTmCompleted 0x20 7 [0xDE, 0xAD])] := by decide
/-- V142. -/
theorem test_tmNack : (post (exec (.tmNack rxN 0x10 0x20 7 []) tmW)).tm = [tmRec .sendingRequest .idle 1 3] := by decide
/-- R131. -/
theorem test_tmReservedFt3 : exec (.tmReservedFt3 rxN 0x10 0x20 7 []) tmW = .next tmW := rfl
/-- R355. -/
theorem test_wdFireTm : ids (post (exec (.wdFireTm 0x20 7) tmW)) = [0x040C4007] := by decide

/-! ### Set block -/

/-- V150. -/
theorem test_sendBlock :
    ids (post (exec (.sendBlock 0x20 0x1234 [0, 1, 2, 3, 4, 5, 6, 7, 8, 9] 3 20 3) live)) = [0x04104001] ∧
    (post (exec (.sendBlock 0x20 0x1234 [0, 1, 2, 3, 4, 5, 6, 7, 8, 9] 3 20 3) live)).sb =
      [{ sbRec .sendingRequest .idle [0] with retryCount := 0 }] := by decide
/-- V151. -/
theorem test_sendBlock_empty : outs (post (exec (.sendBlock 0x20 0 [] 3 20 3) live)) = [.result (.bool false)] := by decide
/-- V154. -/
theorem test_sbRequest_sent :
    (post (exec (.sbRequest txN 0x20 0x10 1 [0x34, 0x12]) (sbAt .sendingRequest .idle [0]))).sb =
      [{ sbRec .idle .waitingForRequestAck [0] with retryCount := 2 }] := by decide
/-- V155. -/
theorem test_sbAck : ((post (exec (.sbAck rxN 0x10 0x20 1 [0x34, 0x12])
      (sbAt .idle .waitingForRequestAck [0]))).nominal.inFlight) = [word 0x04104080 eight] := by decide
/-- V51 and V53: a wrong number, and data compared as bytes. -/
theorem test_sbAck_invalid :
    ids (post (exec (.sbAck rxN 0x10 0x20 0 [0x34, 0x12]) (sbAt .idle .waitingForRequestAck [0]))) = [] ∧
    ids (post (exec (.sbAck rxN 0x10 0x20 1 [0x34, 0x12, 0]) (sbAt .idle .waitingForRequestAck [0]))) = [] := by decide
/-- V157. -/
theorem test_sbNack : (post (exec (.sbNack rxN 0x10 0x20 0 [9]) (sbAt .idle .waitingForRequestAck [0]))).sb =
    [sbRec .sendingRequest .idle [0]] := by decide
/-- V160, V161. -/
theorem test_sbTransfer_sent :
    ((post (exec (.sbTransfer txN 0x20 0x10 0 eight) (sbAt .sendingData .idle [0]))).nominal.inFlight) =
      [word 0x04104081 [8, 9]] ∧
    (post (exec (.sbTransfer txN 0x20 0x10 1 [8, 9]) (sbAt .sendingData .idle [1]))).sb =
      [sbRec .waitingForSendStatusRequest .idle [3]] := by decide
/-- V162. -/
theorem test_sbTransfer_error :
    outs (post (exec (.sbTransfer ⟨.nominal, .sendError .dongleBusy⟩ 0x20 0x10 0 eight) (sbAt .sendingData .idle [0]))) =
      [.event (.sendBlockFailed 0x20 .sendDataFailed)] := by decide
/-- V164. -/
theorem test_rdFireSb : ids (post (exec (.rdFireSb 0x20) (sbAt .waitingForSendStatusRequest .idle [3]))) =
    [0x04104300] := by decide
/-- V165. -/
theorem test_sbStatus_sent : (post (exec (.sbStatus txN 0x20 0x10 0 []) (sbAt .sendingStatusRequest .idle [3]))).sb =
    [{ sbRec .idle .waitingForData [3] with retryCount := 2 }] := by decide
/-- V166, V167. -/
theorem test_sbReport :
    ids (post (exec (.sbReport rxN 0x10 0x20 true 0 [3]) (sbAt .idle .waitingForData [3]))) = [0x04104180] ∧
    (post (exec (.sbReport rxN 0x10 0x20 false 0 [1]) (sbAt .idle .waitingForData [3]))).sb =
      [{ sbRec .sendingData .idle [1] with reportRetryCount := 1 }] := by decide
/-- V59 to V61, V170: invalid reports are ignored. -/
theorem test_sbReport_invalid :
    ids (post (exec (.sbReport rxN 0x10 0x20 true 0 [1]) (sbAt .idle .waitingForData [3]))) = [] ∧
    ids (post (exec (.sbReport rxN 0x10 0x20 false 0 [7]) (sbAt .idle .waitingForData [3]))) = [] ∧
    ids (post (exec (.sbReport rxN 0x10 0x20 false 0 [3, 0]) (sbAt .idle .waitingForData [3]))) = [] := by decide
/-- V174. -/
theorem test_sbAbort_sent : (post (exec (.sbAbort txN 0x20 0x10 0 []) (sbAt .sendingAbort .idle [3]))).sb =
    [{ sbRec .idle .waitingForAbortAck [3] with retryCount := 2 }] := by decide
/-- R132. -/
theorem test_sbReservedFt5 : exec (.sbReservedFt5 rxN 0x10 0x20 0 []) (sbAt .idle .waitingForData [3]) =
    .next (sbAt .idle .waitingForData [3]) := rfl
/-- V158. -/
theorem test_wdFireSb : ids (post (exec (.wdFireSb 0x20) (sbAt .idle .waitingForRequestAck [0]))) = [0x04104001] := by decide
/-- V183: the literal dispatch sends STATUS. -/
theorem test_wdFireSb_literal : ids (post (exec (.wdFireSb 0x20) { sbAt .idle .waitingForRequestAck [0] with
    params := { watchdogDispatch := .literal, gbDataWatchdog := .restart } })) = [0x04104300] := by decide

/-! ### Get block -/

/-- V200. -/
theorem test_receiveBlock : ids (post (exec (.receiveBlock 0x20 0x05 2 3 3) live)) = [0x04144001] ∧
    (post (exec (.receiveBlock 0x20 0x05 2 3 3) live)).gb =
      [{ gbRec .sendingRequest .idle [3] with retryCount := 0, startRetryCount := 0 }] := by decide
/-- V201. -/
theorem test_receiveBlock_long : outs (post (exec (.receiveBlock 0x20 5 65 3 3) live)) = [.result (.bool false)] := by decide
/-- V204. -/
theorem test_gbRequest_sent : (post (exec (.gbRequest txN 0x20 0x10 1 [5]) (gbAt .sendingRequest .idle [3]))).gb =
    [{ gbRec .idle .waitingForRequestAck [3] with retryCount := 2 }] := by decide
/-- V205. -/
theorem test_gbAck : ((post (exec (.gbAck rxN 0x10 0x20 1 [5]) (gbAt .idle .waitingForRequestAck [3]))).nominal.inFlight) =
    [word 0x04144300 [3]] := by decide
/-- V222: every frame arrived, and the START budget is spent. -/
theorem test_gbAck_spent : outs (post (exec (.gbAck rxN 0x10 0x20 0 [])
      (live.putGb { gbRec .idle .waitingForAbortAck [0] with maxStartRetries := 0 }))) =
    [.event (.receiveBlockFailed 0x20 .maxSendStartRetriesReached)] := by decide
/-- V207. -/
theorem test_gbNack : ids (post (exec (.gbNack rxN 0x10 0x20 0 []) (gbAt .idle .waitingForRequestAck [3]))) =
    [0x04144001] := by decide
/-- V208: `retry_count` is unchanged. -/
theorem test_gbStart_sent : (post (exec (.gbStart txN 0x20 0x10 0 [3]) (gbAt .sendingStart .idle [3]))).gb =
    [{ gbRec .idle .waitingForData [3] with startRetryCount := 2 }] := by decide
/-- V210. -/
theorem test_gbTransfer : (post (exec (.gbTransfer rxN 0x10 0x20 0 [0xA0, 0xA1, 0xA2, 0xA3, 0xA4, 0xA5, 0xA6, 0xA7])
      (gbAt .idle .waitingForData [3]))).gb =
    [{ gbRec .idle .waitingForData [2] with
        retryCount := 0, data := [0xA0, 0xA1, 0xA2, 0xA3, 0xA4, 0xA5, 0xA6, 0xA7, 0, 0, 0, 0, 0, 0, 0, 0] }] := by decide
/-- V215, V213. -/
theorem test_gbTransfer_last :
    ids (post (exec (.gbTransfer rxN 0x10 0x20 1 eight) (gbAt .idle .waitingForData [2]))) = [0x04144180] ∧
    (post (exec (.gbTransfer rxN 0x10 0x20 0 eight) (gbAt .idle .waitingForData [2]))).gb =
      [gbRec .idle .waitingForData [2]] := by decide
/-- V220. -/
theorem test_gbAbort_sent : (post (exec (.gbAbort txN 0x20 0x10 0 []) (gbAt .sendingAbort .idle [0]))).gb =
    [{ gbRec .idle .waitingForAbortAck [0] with retryCount := 2 }] := by decide
/-- R132. -/
theorem test_gbReserved : exec (.gbReservedFt1 rxN 0x10 0x20 0 []) (gbAt .idle .waitingForData [3]) =
      .next (gbAt .idle .waitingForData [3]) ∧
    exec (.gbReservedFt5 rxN 0x10 0x20 0 []) (gbAt .idle .waitingForData [3]) =
      .next (gbAt .idle .waitingForData [3]) := ⟨rfl, rfl⟩
/-- V217: START carries the outstanding frames. -/
theorem test_wdFireGb : ((post (exec (.wdFireGb 0x20) (gbAt .idle .waitingForData [2]))).nominal.inFlight) =
    [word 0x04144300 [2]] := by decide
/-- V218. -/
theorem test_wdFireGb_literal : ids (post (exec (.wdFireGb 0x20) { gbAt .idle .waitingForData [2] with
    params := { watchdogDispatch := .literal, gbDataWatchdog := .restart } })) = [0x04144001] := by decide

/-! ### Time-sync, unsolicited, keep-alive, reserved types -/

/-- V240. -/
theorem test_sendTimeSync : ((post (exec (.sendTimeSync 0x0102030405060708) live)).nominal.inFlight) =
    [word 0x00004000 [8, 7, 6, 5, 4, 3, 2, 1]] := by decide
/-- V241. -/
theorem test_sendTimeSync_refused : outs (post (exec (.sendTimeSync 5) (running false))) =
    [.event (.sendTimeSyncFailed 5), .result (.bool false)] := by decide
/-- V242. -/
theorem test_timesync_sent : outs (post (exec (.timesync txN 0x10 [8, 7, 6, 5, 4, 3, 2, 1]) live)) =
    [.event (.sendTimeSyncCompleted 0x0102030405060708)] := by decide
/-- V245: 0x01 is a legal target. -/
theorem test_sendUnsolicited : ids (post (exec (.sendUnsolicited 0x01 0 []) live)) = [0x00244000] := by decide
/-- V249. -/
theorem test_unsol_error : outs (post (exec (.unsol ⟨.nominal, .sendError .dongleBusy⟩ 0x20 0x10 3 []) live)) =
    [.event (.sendUnsolicitedFailed 0x20 3)] := by decide
/-- V105. -/
theorem test_keepalive_redundant : outs (post (exec (.keepalive ⟨.redundant, .received⟩ 0x20 0 []) live)) =
    [.event (.keepAliveReceivedRedundant 0x20 0 [])] := by decide
/-- R130. -/
theorem test_reserved_types : exec (.type6Reserved rxN 0x10 0x20 []) live = .next live ∧
    exec (.type7Reserved rxN 0x10 0x20 []) live = .next live := ⟨rfl, rfl⟩

/-! ### Notifications and lifecycle -/

/-- V105, V106 as notifications. -/
theorem test_frameReceived : outs (post (exec (.frameReceived .redundant (word 0x00248000 [])) live)) =
      [.event (.keepAliveReceivedRedundant 0x20 0 [])] ∧
    outs (post (exec (.frameReceived .redundant (word 0x02048000 [])) live)) = [] := by decide
/-- V126 as a notification. -/
theorem test_frameSent : (post (exec (.frameSent .nominal (word 0x04084000 [1])) tcS)).tc =
    [tcRec .idle .waitingForRequestAck 1 3] := by decide
/-- V127 as a notification. -/
theorem test_sendError : outs (post (exec (.sendError .nominal (word 0x04084000 [1]) .writeError) tcS)) =
    [.event (.sendTcFailed 0x20 0 .sendRequestFailed)] := by decide

def serial : Settings := .serial { portName := "COM1", baud := 1000000 } { portName := "COM2", baud := 1000000 }

/-- The vectors' Start, and V267: the redundant open fails and Nominal is closed again. -/
theorem test_start : (post (exec (.start 0x10 100 serial) (stopped true true))).running = true ∧
    (post (exec (.start 0x10 100 serial) (stopped true false))).nominal.isOpen = false ∧
    (post (exec (.start 0x10 100 serial) (stopped true false))).address = 0x10 := by decide
/-- V264, V265. -/
theorem test_start_invalid : outs (post (exec (.start 0x01 100 serial) (stopped true true))) = [.result (.bool false)] ∧
    (post (exec (.start 0x10 100 .nonSerial) (stopped true true))).address = (stopped true true).address := by decide
/-- V269. -/
theorem test_stop : (post (exec .stop tcW)).tc = [] ∧ outs (post (exec .stop tcW)) = [] ∧
    (post (exec .stop tcW)).nominal.isOpen = false := by decide
/-- V271. -/
theorem test_canBusSwitch : (post (exec .canBusSwitch tcW)).tc = [] ∧
    (post (exec .canBusSwitch tcW)).activeBus = .redundant := by decide
/-- V260. -/
theorem test_getActiveBus : outs (post (exec .getActiveBus State.reset)) = [.result (.bus .nominal)] := by decide
/-- R527. -/
theorem test_getAddress : outs (post (exec .getAddress live)) = [.result (.address 0x10)] := by decide

/-- A table word is fetched, decoded and run as the first instruction after reset (TC.ACK's row). -/
theorem test_withFetchWord : decodeTableWord 32 0x00080100 = some (.tcAck tablePort 0x00 0x00 0x00 []) ∧
    (State.reset.withFetchWord 32 0x00080100).pending = [.frameReceived .nominal (word 0x00080100 [])] := by decide

/-! ### The hypotheses of the statements can be met

One witness for each statement that has hypotheses, each clause at a boundary of its range. -/

def redundantActive : State := { live with activeBus := .redundant }

theorem live_inv : live.Inv := by
  refine ⟨⟨?_, ?_, ?_, ?_⟩, ⟨?_, ?_, ?_, ?_⟩, ⟨⟨?_, ?_⟩, ⟨?_, ?_⟩, ?_, ?_⟩, ⟨?_, ?_⟩⟩ <;> decide

theorem sbAt_inv (tx : SbTx) (rx : BlkRx) (bitmap : List Byte) (h : (sbRec tx rx bitmap).WF) : (sbAt tx rx bitmap).Inv :=
  inv_putSb live_inv rfl h
theorem gbAt_inv (tx : GbTx) (rx : BlkRx) (bitmap : List Byte) (h : (gbRec tx rx bitmap).WF live.params) :
    (gbAt tx rx bitmap).Inv := inv_putGb live_inv rfl h

theorem witness_CodecRoundTrips :
    (LogicalFrame.mk 0xFF 7 0xFF 0x3FF eight).data.length ≤ 8 ∧ (0x1FFFFFFF : Word32).toNat < 2 ^ 29 := by decide
theorem witness_DecodeEncodeAgree :
    let i : Instr := .sbReport rxN 0xFF 0xFF true 63 eight
    let j : Instr := .unsol txN 0x02 0xFF 0xFF []
    (i.wellFormed = true ∧ (pattern i).isSome = true ∧ i.port? = some rxN) ∧
    (j.wellFormed = true ∧ (pattern j).isSome = true ∧ j.port? = some txN) := by decide
theorem witness_DecodeFollowsTheTable :
    decode rxN (word 0x021083C5 eight) = .ok (.sbReport rxN 0x10 0x20 true 5 eight) ∧
    (word 0x021083C5 eight).wellFormed = true ∧
    (word 0 []).extid = true ∧ (word 0 []).rtr = false ∧
    (word 0x1FE00000 []).extid = true ∧ (word 0x1FE00000 []).rtr = false ∧
    decode rxN (word 0x1FE00000 []) = .error .noFrameKind := by decide
theorem witness_HighIdentifierBits :
    (word 0xFFFFFFFF []).id.toNat % 2 ^ 29 = (word 0x1FFFFFFF []).id.toNat % 2 ^ 29 ∧
    (word 0xFFFFFFFF []).extid = (word 0x1FFFFFFF []).extid ∧ (word 0xFFFFFFFF []).rtr = (word 0x1FFFFFFF []).rtr ∧
    (word 0xFFFFFFFF []).data = (word 0x1FFFFFFF []).data := by decide
/-- One block and 64 blocks; the two TRANSFERs of a block of ten bytes. -/
theorem witness_FramesTheEngineBuilds :
    ((sbRec .idle .idle [0]).blocks.toNat = ((sbRec .idle .idle [0]).data.length + 7) / 8 ∧
      1 < (sbRec .idle .idle [0]).blocks.toNat) ∧
    (1 ≤ ({ sbRec .idle .idle [0] with blocks := 1 }).blocks.toNat ∧ ({ sbRec .idle .idle [0] with blocks := 64 }).blocks.toNat ≤ 64) ∧
    (1 ≤ ({ gbRec .idle .idle [0] with blocks := 1 }).blocks.toNat ∧
      ({ gbRec .idle .idle [0] with blocks := 64 }).blocks.toNat ≤ 64) := by decide
/-- V35, V38, V41: one byte, a trimmed image, and eight bytes. -/
theorem witness_StartAddressIsTrimmed : (encodeStart 0).length = 1 ∧
    (1 < (encodeStart 0x0100).length ∧ (encodeStart 0x0100).length ≤ 2) ∧
    (encodeStart 0xFF00000000000000).length = 8 := by decide
theorem witness_BitmapLawsOfTheSource : ([0xAA] : List Byte).length = (1 + 7) / 8 ∧ (0 < 1 ∧ 7 < 8 * 1) ∧
    (List.replicate 8 (0xFF : Byte)).length = (64 + 7) / 8 ∧ 63 < 64 := by decide
theorem witness_BitmapLawsThatFollow :
    (1 < 8 * ([3] : List Byte).length ∧ 7 < 8 * ([3] : List Byte).length ∧ 2 ≤ 8 * ([3] : List Byte).length ∧ 7 ≠ 1 ∧
      isValid [3] 2 = true ∧ 1 < 2) ∧ (0 ≤ 8 * ([3] : List Byte).length) ∧ 8 ≤ 8 * ([3] : List Byte).length := by decide
/-- V75, and a buffer of 16 bytes: the last block inside it and the first outside. -/
theorem witness_PrimitivesFaultOutsideTheirRange :
    8 * ([0] : List Byte).length ≤ 8 ∧ 7 < 8 * ([0] : List Byte).length ∧
    (List.replicate 16 (0 : Byte)).length < 16 + 1 ∧ (List.replicate 16 (0 : Byte)).length < 9 + eight.length ∧
    8 + 8 ≤ (List.replicate 16 (0 : Byte)).length ∧ 8 + eight.length ≤ (List.replicate 16 (0 : Byte)).length := by decide
theorem witness_SendFrameOffersToTheActiveDriver :
    (State.reset.link State.reset.activeBus).isOpen = false ∧
    ((live.link live.activeBus).isOpen = true ∧ (live.link live.activeBus).answers = [true]) ∧
    (((running false).link (running false).activeBus).isOpen = true ∧
      ((running false).link (running false).activeBus).answers = [false]) := by decide
theorem witness_NotificationsRunTheirFrameKind :
    decode rxN (word 0x02088100 []) = .ok (.tcAck rxN 0x10 0x20 0 []) ∧
    decode rxN ⟨0x02088100, false, false, []⟩ = .error .standardIdentifier ∧
    ((pattern (.tcRequest txN 0x20 0x10 0 [1])).isSome = true ∧
      (Instr.tcRequest txN 0x20 0x10 0 [1]).port? = some ⟨.nominal, .sent⟩ ∧
      encode (.tcRequest txN 0x20 0x10 0 [1]) = some (word 0x04084000 [1])) ∧
    ((pattern (.timesync ⟨.redundant, .sendError .writeError⟩ 0x10 [])).isSome = true ∧
      (Instr.timesync ⟨.redundant, .sendError .writeError⟩ 0x10 []).port? = some ⟨.redundant, .sendError .writeError⟩ ∧
      encode (.timesync ⟨.redundant, .sendError .writeError⟩ 0x10 []) = some (word 0x00004000 [])) := by decide
/-- A stopped engine, and a running one whose driver is closed. -/
theorem witness_ClosedDriversDeliverNothing :
    ((Instr.tcAck rxN 0x10 0x20 0 []).port? = some rxN ∧ State.reset.delivers rxN.bus = false) ∧
    ((Instr.frameSent .nominal (word 0 [])).port? = some txN ∧
      ({ live with nominal := Link.reset }).delivers txN.bus = false) := by decide
theorem witness_InactiveBusGivesKeepAlivesOnly :
    live.delivers .redundant = true ∧ Bus.redundant ≠ live.activeBus ∧
    (idToAddress (word 0x00248000 []).id = 0x01 ∧ idTransferType (word 0x00248000 []).id = 1) ∧
    idToAddress (word 0x02048000 []).id ≠ 0x01 := by decide
theorem witness_ActiveBusBroadcasts : live.Inv ∧ live.hears .nominal ∧
    (idToAddress (word 0x00248000 []).id = 0x01 ∧ idTransferType (word 0x00248000 []).id = 1) ∧
    (idToAddress (word 0x00008000 []).id = 0x00 ∧ idTransferType (word 0x00008000 []).id = 0) ∧
    (idToAddress (word 0x02288100 []).id = 0x11 ∧ live.address ≠ 0x11) ∧
    (idToAddress (word 0x02000000 []).id = live.address ∧ idTransferType (word 0x02000000 []).id = 0) ∧
    (idToAddress (word 0x02180000 []).id = live.address ∧ idTransferType (word 0x02180000 []).id = 6) ∧
    (idToAddress (word 0x021C0000 []).id = live.address ∧ idTransferType (word 0x021C0000 []).id = 7) := by
  refine ⟨live_inv, ?_⟩; decide
theorem witness_MalformedFramesAreIgnored :
    (CanFrame.mk 0x02088100 false false []).extid = false ∧ (CanFrame.mk 0x02088100 true true []).rtr = true ∧
    6 ≤ (idTransferType (word 0x02188000 []).id).toNat ∧ 6 ≤ (idTransferType (word 0x021C8000 []).id).toNat := by decide
theorem witness_ReservedKindsAreIgnored :
    rxN.notice = .received ∧ (txN.notice ≠ .received ∧ live.delivers txN.bus = true) := by decide
theorem witness_ConfirmedResponsesAreIgnored : txN.notice ≠ .received ∧ live.delivers txN.bus = true ∧
    (Port.mk .redundant (.sendError .dongleBusy)).notice ≠ .received ∧ live.delivers .redundant = true := by decide
/-- Another address on the active bus, and the local address on the inactive bus. -/
theorem witness_FramesForOthersAreIgnored :
    ¬(live.hears .nominal ∧ (0x11 : Byte) = live.address) ∧ ¬(live.hears .redundant ∧ (0x10 : Byte) = live.address) := by decide
theorem witness_InactiveConfirmationsAreIgnored :
    (live.delivers .redundant = true ∧ Bus.redundant ≠ live.activeBus) ∧
    (redundantActive.delivers .nominal = true ∧ Bus.nominal ≠ redundantActive.activeBus) := by decide
theorem witness_BusSwitch : live.running = true ∧ State.reset.running = false ∧
    exec .canBusSwitch live = .next redundantActive ∧ exec .canBusSwitch redundantActive = .next live := by
  refine ⟨rfl, rfl, rfl, rfl⟩
theorem witness_SendTcAndReceiveTmStart :
    (live.running = true ∧ (0x02 : Byte) ≠ 0x00 ∧ (0x02 : Byte) ≠ 0x01 ∧ live.lookupTc 0x02 0xFF = none ∧ eight.length ≤ 8 ∧
      live.accepts = true) ∧
    ((running false).running = true ∧ (0xFF : Byte) ≠ 0x00 ∧ (0xFF : Byte) ≠ 0x01 ∧ (running false).lookupTm 0xFF 0 = none ∧
      (running false).accepts = false) := by decide
theorem witness_SendBlockStarts :
    (live.running = true ∧ (0x20 : Byte) ≠ 0x00 ∧ (0x20 : Byte) ≠ 0x01 ∧ live.lookupSb 0x20 = none ∧ live.accepts = true ∧
      (running false).accepts = false) ∧
    (1 ≤ (List.replicate 1 (0 : Byte)).length ∧ (List.replicate 512 (0 : Byte)).length ≤ 512) :=
  ⟨by decide, by decide, List.length_replicate.le⟩
theorem witness_ReceiveBlockStarts :
    live.running = true ∧ (0x20 : Byte) ≠ 0x00 ∧ (0x20 : Byte) ≠ 0x01 ∧ live.lookupGb 0x20 = none ∧
    (1 ≤ 1 ∧ 64 ≤ 64) ∧ live.accepts = true ∧ (running false).accepts = false := by decide
theorem witness_AuxiliarySends : live.running = true ∧ (0x01 : Byte) ≠ 0x00 ∧ eight.length ≤ 8 ∧ live.accepts = true ∧
    (running false).accepts = false := by decide
/-- Each way to be invalid, alone. -/
theorem witness_InvalidCommandsAreRefused : State.reset.running = false ∧ (tcS.lookupTc 0x20 0).isSome = true ∧
    (tmS.lookupTm 0x20 7).isSome = true ∧ ((sbAt .sendingRequest .idle [0]).lookupSb 0x20).isSome = true ∧
    ((gbAt .sendingRequest .idle [3]).lookupGb 0x20).isSome = true ∧ 8 < nine.length ∧ ([] : List Byte).length = 0 ∧
    64 < 65 ∧
    ((stopped false true).nominal.nextAnswer .nominal = false ∧ (stopped false true).running = false) ∧
    ((stopped true false).redundant.nextAnswer .redundant = false ∧ (stopped true false).running = false) ∧
    512 < (List.replicate 513 (0 : Byte)).length := by
  refine ⟨?_, ?_, ?_, ?_, ?_, ?_, ?_, ?_, ?_, ?_, lt_of_lt_of_eq (by decide : 512 < 513) List.length_replicate.symm⟩ <;>
    decide

/-! #### Telecommand and telemetry -/

theorem witness_TelecommandRequestConfirmed :
    (tcS.hears .nominal ∧ tcS.lookupTc 0x20 0 = some (tcRec .sendingRequest .idle 0 3)) ∧
    (tmS.hears .nominal ∧ tmS.lookupTm 0x20 7 = some (tmRec .sendingRequest .idle 0 3)) ∧
    (tcW.hears .nominal ∧ tcW.lookupTc 0x20 0 = some (tcRec .idle .waitingForRequestAck 1 3)) ∧
    (live.hears .nominal ∧ live.lookupTm 0x20 7 = none) := by decide
theorem witness_TelecommandAck :
    (tcW.hears .nominal ∧ tcW.lookupTc 0x20 0 = some (tcRec .idle .waitingForRequestAck 1 3)) ∧
    (tmW.hears .nominal ∧ tmW.lookupTm 0x20 7 = some (tmRec .idle .waitingForRequestAck 1 3)) ∧
    (tcS.hears .nominal ∧ tcS.lookupTc 0x20 0 = some (tcRec .sendingRequest .idle 0 3)) := by decide
/-- A record that may retry (count equal to its cap) and one whose budget is spent (one above it). -/
theorem witness_TelecommandNack :
    let last := live.putTc (tcRec .idle .waitingForRequestAck 3 3)
    let spent := live.putTm (tmRec .idle .waitingForRequestAck 4 3)
    (last.hears .nominal ∧ last.lookupTc 0x20 0 = some (tcRec .idle .waitingForRequestAck 3 3)) ∧
    (spent.hears .nominal ∧ spent.lookupTm 0x20 7 = some (tmRec .idle .waitingForRequestAck 4 3)) := by decide
theorem witness_TelecommandWatchdog :
    (tcW.running = true ∧ tcW.lookupTc 0x20 0 = some (tcRec .idle .waitingForRequestAck 1 3) ∧
      (tcRec .idle .waitingForRequestAck 1 3).wd.isArmed = true) ∧
    (tmW.running = true ∧ tmW.lookupTm 0x20 7 = some (tmRec .idle .waitingForRequestAck 1 3) ∧
      (tmRec .idle .waitingForRequestAck 1 3).wd.isArmed = true) ∧
    (tcS.running = true ∧ tcS.lookupTc 0x20 0 = some (tcRec .sendingRequest .idle 0 3) ∧
      (tcRec .sendingRequest .idle 0 3).wd = .idle) := by decide
theorem witness_TelecommandSendError :
    (tcS.hears .nominal ∧ tcS.lookupTc 0x20 0 = some (tcRec .sendingRequest .idle 0 3)) ∧
    (tmS.hears .nominal ∧ tmS.lookupTm 0x20 7 = some (tmRec .sendingRequest .idle 0 3)) ∧
    (tcW.hears .nominal ∧ tcW.lookupTc 0x20 0 = some (tcRec .idle .waitingForRequestAck 1 3)) := by decide
/-- A step that counts the last attempt a cap of 3 allows. -/
theorem witness_StepKeepsTheRetryBudget :
    let s := { live.putTc (tcRec .sendingRequest .idle 3 3) with pending := [.tcRequest txN 0x20 0x10 0 [1]] }
    s.Budget ∧ (post (step s)).tc = [tcRec .idle .waitingForRequestAck 4 3] := by decide

/-! #### Set block -/

theorem witness_SetBlockConfirmed :
    ((sbAt .sendingRequest .idle [0]).hears .nominal ∧
      (sbAt .sendingRequest .idle [0]).lookupSb 0x20 = some (sbRec .sendingRequest .idle [0])) ∧
    (sbAt .sendingStatusRequest .idle [3]).lookupSb 0x20 = some (sbRec .sendingStatusRequest .idle [3]) ∧
    (sbAt .sendingAbort .idle [3]).lookupSb 0x20 = some (sbRec .sendingAbort .idle [3]) ∧
    (live.hears .nominal ∧ live.lookupSb 0x20 = none) := by decide
/-- The first frame, the last one, and one outside the block. -/
theorem witness_SetBlockTransferConfirmed :
    (sbAt .sendingData .idle [0]).Inv ∧ (sbAt .sendingData .idle [1]).Inv ∧
    ((sbAt .sendingData .idle [0]).hears .nominal ∧
      (sbAt .sendingData .idle [0]).lookupSb 0x20 = some (sbRec .sendingData .idle [0]) ∧
      LowestClear (withBitSet [0] 0) 2 1 ∧ FullBitmap (withBitSet [1] 1) 2 ∧
      (1 : Seq).toNat < (sbRec .sendingData .idle [0]).blocks.toNat ∧
      (sbRec .sendingData .idle [0]).blocks.toNat ≤ (2 : Seq).toNat) :=
  ⟨sbAt_inv _ _ _ (by decide), sbAt_inv _ _ _ (by decide), by decide⟩
theorem witness_SetBlockReportDelay :
    ((sbAt .waitingForSendStatusRequest .idle [3]).running = true ∧
      (sbAt .waitingForSendStatusRequest .idle [3]).lookupSb 0x20 = some (sbRec .waitingForSendStatusRequest .idle [3]) ∧
      (sbRec .waitingForSendStatusRequest .idle [3]).rd.isArmed = true) ∧
    (sbRec .sendingData .idle [0]).rd = .idle := by decide
/-- A request-ACK at one and at two blocks, and the ABORT-ACK on both paths. -/
theorem witness_SetBlockAck :
    ((sbAt .idle .waitingForRequestAck [0]).Inv ∧ (sbAt .idle .waitingForRequestAck [0]).hears .nominal ∧
      (sbAt .idle .waitingForRequestAck [0]).lookupSb 0x20 = some (sbRec .idle .waitingForRequestAck [0]) ∧
      (1 : Seq).toNat + 1 = (sbRec .idle .waitingForRequestAck [0]).blocks.toNat) ∧
    ((sbAt .idle .waitingForAbortAck [3]).Inv ∧ (sbAt .idle .waitingForAbortAck [3]).hears .nominal ∧
      (sbAt .idle .waitingForAbortAck [3]).lookupSb 0x20 = some (sbRec .idle .waitingForAbortAck [3]) ∧
      ¬(sbRec .idle .waitingForAbortAck [3]).succeeded ∧
      ({ sbRec .idle .waitingForAbortAck [3] with done := true }).succeeded) ∧
    (0 : Seq).toNat + 1 ≠ (sbRec .idle .waitingForRequestAck [0]).blocks.toNat :=
  ⟨⟨sbAt_inv _ _ _ (by decide), by decide⟩, ⟨sbAt_inv _ _ _ (by decide), by decide⟩, by decide⟩
theorem witness_SetBlockNack :
    ((sbAt .idle .waitingForRequestAck [0]).Inv ∧ (sbAt .idle .waitingForRequestAck [0]).hears .nominal ∧
      (sbAt .idle .waitingForRequestAck [0]).lookupSb 0x20 = some (sbRec .idle .waitingForRequestAck [0])) ∧
    ((sbAt .idle .waitingForData [3]).Inv ∧
      (sbAt .idle .waitingForData [3]).lookupSb 0x20 = some (sbRec .idle .waitingForData [3])) ∧
    ((sbAt .idle .waitingForAbortAck [3]).Inv ∧
      (sbAt .idle .waitingForAbortAck [3]).lookupSb 0x20 = some (sbRec .idle .waitingForAbortAck [3])) ∧
    ((sbAt .sendingRequest .idle [0]).Inv ∧
      (sbAt .sendingRequest .idle [0]).lookupSb 0x20 = some (sbRec .sendingRequest .idle [0])) :=
  ⟨⟨sbAt_inv _ _ _ (by decide), by decide⟩, ⟨sbAt_inv _ _ _ (by decide), by decide⟩,
    ⟨sbAt_inv _ _ _ (by decide), by decide⟩, ⟨sbAt_inv _ _ _ (by decide), by decide⟩⟩
/-- Valid: done, full without done, one frame missing, and a report budget one above its cap. Invalid: V59. -/
theorem witness_SetBlockReport :
    ((sbAt .idle .waitingForData [3]).Inv ∧ (sbAt .idle .waitingForData [3]).hears .nominal ∧
      (sbAt .idle .waitingForData [3]).lookupSb 0x20 = some (sbRec .idle .waitingForData [3])) ∧
    (isValid [3] 2 = true ∧ FullBitmap [3] 2) ∧ (isValid [1] 2 = true ∧ LowestClear [1] 2 1) ∧
    ¬((3 : Byte).toNat < (3 : Byte).toNat) ∧ (3 : Byte).toNat < (4 : Byte).toNat ∧ ¬FullBitmap [1] 2 :=
  ⟨⟨sbAt_inv _ _ _ (by decide), by decide⟩, by decide⟩
theorem witness_SetBlockWatchdog :
    let literal := { sbAt .idle .waitingForRequestAck [0] with
      params := { watchdogDispatch := .literal, gbDataWatchdog := .restart } }
    ((sbAt .idle .waitingForRequestAck [0]).Inv ∧ (sbAt .idle .waitingForRequestAck [0]).running = true ∧
      (sbRec .idle .waitingForRequestAck [0]).wd.isArmed = true ∧
      (sbAt .idle .waitingForRequestAck [0]).params.watchdogDispatch = .perState) ∧
    ((sbAt .idle .waitingForData [3]).Inv ∧ (sbAt .idle .waitingForAbortAck [3]).Inv) ∧
    (literal.Inv ∧ literal.params.watchdogDispatch = .literal) ∧ (sbRec .sendingRequest .idle [0]).wd = .idle :=
  have h := sbAt_inv .idle .waitingForRequestAck [0] (by decide)
  ⟨⟨h, by decide⟩, ⟨sbAt_inv _ _ _ (by decide), sbAt_inv _ _ _ (by decide)⟩,
    ⟨⟨h.1, ⟨h.2.1.1, h.2.1.2.1, h.2.1.2.2.1, by decide⟩, h.2.2.1, h.2.2.2⟩, by decide⟩, by decide⟩
theorem witness_SetBlockSendError :
    (sbAt .sendingRequest .idle [0]).hears .nominal ∧
    (sbAt .sendingRequest .idle [0]).lookupSb 0x20 = some (sbRec .sendingRequest .idle [0]) ∧
    (sbAt .sendingData .idle [0]).lookupSb 0x20 = some (sbRec .sendingData .idle [0]) ∧
    (sbAt .sendingStatusRequest .idle [3]).lookupSb 0x20 = some (sbRec .sendingStatusRequest .idle [3]) ∧
    (sbAt .sendingAbort .idle [3]).lookupSb 0x20 = some (sbRec .sendingAbort .idle [3]) := by decide

/-! #### Get block -/

theorem witness_GetBlockConfirmed :
    ((gbAt .sendingRequest .idle [3]).hears .nominal ∧
      (gbAt .sendingRequest .idle [3]).lookupGb 0x20 = some (gbRec .sendingRequest .idle [3])) ∧
    (gbAt .sendingStart .idle [3]).lookupGb 0x20 = some (gbRec .sendingStart .idle [3]) ∧
    (gbAt .sendingAbort .idle [0]).lookupGb 0x20 = some (gbRec .sendingAbort .idle [0]) ∧
    (live.hears .nominal ∧ live.lookupGb 0x20 = none) := by decide
theorem witness_GetBlockAck :
    ((gbAt .idle .waitingForRequestAck [3]).hears .nominal ∧
      (gbAt .idle .waitingForRequestAck [3]).lookupGb 0x20 = some (gbRec .idle .waitingForRequestAck [3]) ∧
      (1 : Seq).toNat + 1 = (gbRec .idle .waitingForRequestAck [3]).blocks.toNat) ∧
    ((gbAt .idle .waitingForAbortAck [0]).hears .nominal ∧
      (gbAt .idle .waitingForAbortAck [0]).lookupGb 0x20 = some (gbRec .idle .waitingForAbortAck [0])) ∧
    (3 : Byte).toNat < (4 : Byte).toNat ∧ ¬((3 : Byte).toNat < (3 : Byte).toNat) := by decide
theorem witness_GetBlockNack :
    ((gbAt .idle .waitingForRequestAck [3]).hears .nominal ∧
      (gbAt .idle .waitingForRequestAck [3]).lookupGb 0x20 = some (gbRec .idle .waitingForRequestAck [3])) ∧
    (gbAt .idle .waitingForData [2]).lookupGb 0x20 = some (gbRec .idle .waitingForData [2]) ∧
    (gbAt .idle .waitingForAbortAck [0]).lookupGb 0x20 = some (gbRec .idle .waitingForAbortAck [0]) ∧
    (gbAt .sendingRequest .idle [3]).lookupGb 0x20 = some (gbRec .sendingRequest .idle [3]) := by decide
/-- Frames still missing, the last frame, a frame that is held, and one outside the block. -/
theorem witness_GetBlockTransfer :
    ((gbAt .idle .waitingForData [3]).Inv ∧ (gbAt .idle .waitingForData [3]).hears .nominal ∧
      (gbAt .idle .waitingForData [3]).lookupGb 0x20 = some (gbRec .idle .waitingForData [3]) ∧
      bitAt [3] 1 = true ∧ bitAt [3] 0 = true) ∧
    ((gbAt .idle .waitingForData [2]).Inv ∧ bitAt [2] 1 = true ∧ bitAt [2] 0 = false) ∧
    eight.length = 8 ∧ (1 : Seq).toNat < (gbRec .idle .waitingForData [3]).blocks.toNat ∧
    ¬((2 : Seq).toNat < (gbRec .idle .waitingForData [3]).blocks.toNat) :=
  ⟨⟨gbAt_inv _ _ _ (by decide), by decide⟩, ⟨gbAt_inv _ _ _ (by decide), by decide⟩, by decide⟩
theorem witness_GetBlockWatchdog :
    ((gbAt .idle .waitingForRequestAck [3]).running = true ∧
      (gbRec .idle .waitingForRequestAck [3]).wd.isArmed = true ∧
      (gbAt .idle .waitingForRequestAck [3]).lookupGb 0x20 = some (gbRec .idle .waitingForRequestAck [3])) ∧
    (gbAt .idle .waitingForData [2]).lookupGb 0x20 = some (gbRec .idle .waitingForData [2]) ∧
    (gbAt .idle .waitingForAbortAck [0]).lookupGb 0x20 = some (gbRec .idle .waitingForAbortAck [0]) ∧
    (gbAt .idle .waitingForData [2]).params.watchdogDispatch = .perState ∧
    (gbRec .sendingRequest .idle [3]).wd = .idle := by decide
theorem witness_GetBlockSendError :
    (gbAt .sendingRequest .idle [3]).hears .nominal ∧
    (gbAt .sendingRequest .idle [3]).lookupGb 0x20 = some (gbRec .sendingRequest .idle [3]) ∧
    (gbAt .sendingStart .idle [3]).lookupGb 0x20 = some (gbRec .sendingStart .idle [3]) ∧
    (gbAt .sendingAbort .idle [0]).lookupGb 0x20 = some (gbRec .sendingAbort .idle [0]) := by decide

/-! #### Auxiliary frames, lifecycle and the machine as a whole -/

theorem witness_AuxiliaryConfirmed : live.hears .nominal ∧ idTransferType (word 0x00004000 []).id = 0 ∧
    idTransferType (word 0x04044003 []).id = 1 ∧ idTransferType (word 0x00244000 []).id = 1 := by decide
theorem witness_AuxiliaryReceived : live.Inv ∧ live.delivers .nominal = true ∧ Bus.nominal = live.activeBus ∧
    live.delivers .redundant = true ∧ Bus.redundant ≠ live.activeBus := by
  refine ⟨live_inv, ?_⟩; decide
theorem witness_StartOpensBothDrivers :
    ((0x02 : Byte) ≠ 0x00 ∧ (0x02 : Byte) ≠ 0x01 ∧ (stopped true true).running = false ∧
      (stopped true true).nominal.isOpen = false ∧ (stopped true true).redundant.isOpen = false) ∧
    ((stopped true true).nominal.nextAnswer .nominal = true ∧ (stopped true true).redundant.nextAnswer .redundant = true) ∧
    (stopped true false).redundant.nextAnswer .redundant = false ∧
    (stopped false true).nominal.nextAnswer .nominal = false := by decide
theorem witness_StopClearsAndCloses : tcW.running = true ∧ State.reset.running = false := by decide
theorem witness_StepRunsThePostedInstruction :
    (({ live with pending := [.stop] }).pending = .stop :: [] ∧ Instr.stop.wellFormed = true) ∧
    (({ live with pending := [.frameReceived .nominal (word 0x02088100 eight), .stop] }).pending =
        .frameReceived .nominal (word 0x02088100 eight) :: [.stop] ∧ (word 0x02088100 eight).data.length ≤ 8 ∧
      decode rxN (word 0x02088100 eight) = .ok (.tcAck rxN 0x10 0x20 0 eight)) ∧
    live.pending = [] ∧
    (({ live with pending := [.tcAck rxN 0x10 0x20 0 nine] }).pending = .tcAck rxN 0x10 0x20 0 nine :: [] ∧
      (Instr.tcAck rxN 0x10 0x20 0 nine).wellFormed = false) := by decide
/-- A step that runs: the last frame of a block arrives and ABORT goes out. -/
theorem witness_StepKeepsTheInvariant :
    let s := { gbAt .idle .waitingForData [2] with pending := [.gbTransfer rxN 0x10 0x20 1 eight] }
    s.Inv ∧ step s = .next (post (step s)) ∧ ids (post (step s)) = [0x04144180] :=
  ⟨gbAt_inv .idle .waitingForData [2] (by decide), rfl, by decide⟩
theorem witness_NoInstructionStops : (sbAt .sendingData .idle [0]).Inv := sbAt_inv _ _ _ (by decide)
/-- A transfer that ends, one that stays, and one that CanBusSwitch abandons. -/
theorem witness_OneTerminalEvent :
    (exec (.tcAck rxN 0x10 0x20 0 []) tcW = .next (post (exec (.tcAck rxN 0x10 0x20 0 []) tcW)) ∧
      tcW.live (.tc 0x20 0) = true ∧ (post (exec (.tcAck rxN 0x10 0x20 0 []) tcW)).live (.tc 0x20 0) = false) ∧
    (exec (.wdFireTc 0x20 0) tcW = .next (post (exec (.wdFireTc 0x20 0) tcW)) ∧
      (post (exec (.wdFireTc 0x20 0) tcW)).live (.tc 0x20 0) = true) ∧
    (exec .canBusSwitch tcW = .next (post (exec .canBusSwitch tcW)) ∧ abandons .canBusSwitch = true ∧
      tcW.running = true) := ⟨⟨rfl, by decide⟩, ⟨rfl, by decide⟩, ⟨rfl, by decide⟩⟩
/-- A fire that retries its own transfer while another lives, and an ACK that completes its sender's. -/
theorem witness_AStepTouchesOneRecord :
    let two := tcW.putTc { tcRec .idle .waitingForRequestAck 1 3 with address := 0x30 }
    (exec (.wdFireTc 0x20 0) two = .next (post (exec (.wdFireTc 0x20 0) two)) ∧ abandons (.wdFireTc 0x20 0) = false ∧
      touches (.wdFireTc 0x20 0) ≠ some (.tc 0x30 0) ∧ ∀ a ms cfg, Instr.wdFireTc 0x20 0 ≠ .start a ms cfg) ∧
    (exec (.frameReceived .nominal (word 0x02088100 [])) two =
        .next (post (exec (.frameReceived .nominal (word 0x02088100 [])) two)) ∧
      abandons (.frameReceived .nominal (word 0x02088100 [])) = false ∧
      touches (.frameReceived .nominal (word 0x02088100 [])) ≠ some (.tc 0x30 0)) :=
  ⟨⟨rfl, rfl, by decide, by simp⟩, rfl, rfl, by decide⟩

end Sys2Proof.Tests
end

section
/-! PROOFS. The state after reset (R65) and the silence of a driver that does not deliver (log entry 15).

Every frame kind has one shape: an action when it is received, one when it is confirmed sent and one when it is confirmed
not sent, the latter two behind the gate `confirm`. `atPort` is that shape, and one equation for each kind says which
actions it has. What holds of every frame kind is then proved once for the shape, here and in the proof that every
instruction keeps the invariant. -/

namespace Sys2Proof.Machine

/-! ### The shape of a frame kind: R291 to R299 -/

/-- What a frame kind does at a port, from its three actions. -/
def atPort (p : Port) (frame : LogicalFrame) (received sent error : State → Result) (s : State) : Result :=
  match p.notice with
  | .received => received s
  | .sent => confirm p.bus (encodeFrame frame) s sent
  | .sendError _ => confirm p.bus (encodeFrame frame) s error

/-- What a kind does that is no response: nothing when it is received (R122, R130 to R132). -/
abbrev outgoingAt (p : Port) (frame : LogicalFrame) (sent error : State → Result) : State → Result :=
  atPort p frame .next sent error

/-- What a response kind does: `h` when it is received for the local node, nothing when it is confirmed (R292, R299). -/
abbrev responseAt (p : Port) (toAddr : Byte) (frame : LogicalFrame) (h : State → Result) : State → Result :=
  atPort p frame (receiveLocal p.bus toAddr · h) .next .next

section
variable (p : Port) (t f ch : Byte) (n : Seq) (d : List Byte)

theorem exec_tcRequest : exec (.tcRequest p t f ch d) = outgoingAt p (tcFrame .request t f ch d)
    (fun s => .next (s.tcRequestSent t ch)) (fun s => .next (s.tcRequestError t ch)) := rfl
theorem exec_tcAck : exec (.tcAck p t f ch d) = responseAt p t (tcFrame .ack t f ch d)
    (fun s => .next (s.tcOnAck f ch)) := rfl
theorem exec_tcNack : exec (.tcNack p t f ch d) = responseAt p t (tcFrame .nack t f ch d)
    (fun s => .next (s.tcOnNack f ch)) := rfl
theorem exec_tcReservedFt3 : exec (.tcReservedFt3 p t f ch d) = outgoingAt p (tcFrame .reserved3 t f ch d) .next .next := rfl

theorem exec_tmRequest : exec (.tmRequest p t f ch d) = outgoingAt p (tmFrame .request t f ch d)
    (fun s => .next (s.tmRequestSent t ch)) (fun s => .next (s.tmRequestError t ch)) := rfl
theorem exec_tmAck : exec (.tmAck p t f ch d) = responseAt p t (tmFrame .ack t f ch d)
    (fun s => .next (s.tmOnAck f ch d)) := rfl
theorem exec_tmNack : exec (.tmNack p t f ch d) = responseAt p t (tmFrame .nack t f ch d)
    (fun s => .next (s.tmOnNack f ch)) := rfl
theorem exec_tmReservedFt3 : exec (.tmReservedFt3 p t f ch d) = outgoingAt p (tmFrame .reserved3 t f ch d) .next .next := rfl

theorem exec_sbRequest : exec (.sbRequest p t f n d) = outgoingAt p (sbFrame .request t f false n d)
    (fun s => .next (s.sbRequestSent t)) (fun s => .next (s.sbFrameError t .sendingRequest .sendRequestFailed)) := rfl
theorem exec_sbTransfer : exec (.sbTransfer p t f n d) = outgoingAt p (sbFrame .transfer t f false n d)
    (fun s => s.sbTransferSent t n) (fun s => .next (s.sbFrameError t .sendingData .sendDataFailed)) := rfl
theorem exec_sbAck : exec (.sbAck p t f n d) = responseAt p t (sbFrame .ack t f false n d)
    (fun s => s.sbOnAck f n d) := rfl
theorem exec_sbAbort : exec (.sbAbort p t f n d) = outgoingAt p (sbFrame .abort t f false n d)
    (fun s => .next (s.sbAbortSent t)) (fun s => .next (s.sbFrameError t .sendingAbort .sendAbortFailed)) := rfl
theorem exec_sbNack : exec (.sbNack p t f n d) = responseAt p t (sbFrame .nack t f false n d)
    (fun s => s.sbOnNack f n d) := rfl
theorem exec_sbReservedFt5 : exec (.sbReservedFt5 p t f n d) =
    outgoingAt p (sbFrame .reserved5 t f false n d) .next .next := rfl
theorem exec_sbStatus : exec (.sbStatus p t f n d) = outgoingAt p (sbFrame .status t f false n d)
    (fun s => .next (s.sbStatusSent t))
    (fun s => .next (s.sbFrameError t .sendingStatusRequest .sendStatusRequestFailed)) := rfl
theorem exec_sbReport (done : Bool) : exec (.sbReport p t f done n d) = responseAt p t (sbFrame .report t f done n d)
    (fun s => s.sbOnReport f done d) := rfl

theorem exec_gbRequest : exec (.gbRequest p t f n d) = outgoingAt p (gbFrame .request t f n d)
    (fun s => .next (s.gbRequestSent t)) (fun s => .next (s.gbFrameError t .sendingRequest .sendRequestFailed)) := rfl
theorem exec_gbReservedFt1 : exec (.gbReservedFt1 p t f n d) = outgoingAt p (gbFrame .reserved1 t f n d) .next .next := rfl
theorem exec_gbAck : exec (.gbAck p t f n d) = responseAt p t (gbFrame .ack t f n d)
    (fun s => .next (s.gbOnAck f n d)) := rfl
theorem exec_gbAbort : exec (.gbAbort p t f n d) = outgoingAt p (gbFrame .abort t f n d)
    (fun s => .next (s.gbAbortSent t)) (fun s => .next (s.gbFrameError t .sendingAbort .sendAbortFailed)) := rfl
theorem exec_gbNack : exec (.gbNack p t f n d) = responseAt p t (gbFrame .nack t f n d)
    (fun s => .next (s.gbOnNack f n d)) := rfl
theorem exec_gbReservedFt5 : exec (.gbReservedFt5 p t f n d) = outgoingAt p (gbFrame .reserved5 t f n d) .next .next := rfl
theorem exec_gbStart : exec (.gbStart p t f n d) = outgoingAt p (gbFrame .start t f n d)
    (fun s => .next (s.gbStartSent t)) (fun s => .next (s.gbFrameError t .sendingStart .sendStartFailed)) := rfl
theorem exec_gbTransfer : exec (.gbTransfer p t f n d) = responseAt p t (gbFrame .transfer t f n d)
    (fun s => s.gbOnTransfer f n d) := rfl

theorem exec_unsol : exec (.unsol p t f ch d) = atPort p (unsolFrame t f ch d)
    (receiveLocal p.bus t · fun s => .next (s.unsolReceived f ch d))
    (fun s => .next (s.unsolSent t ch)) (fun s => .next (s.unsolError t ch)) := rfl
theorem exec_type6Reserved : exec (.type6Reserved p t f d) =
    outgoingAt p (reservedFrame .reserved6 t f d) .next .next := rfl
theorem exec_type7Reserved : exec (.type7Reserved p t f d) =
    outgoingAt p (reservedFrame .reserved7 t f d) .next .next := rfl

/-- What a received keep-alive does on the bus it arrives on (R293, R296). -/
def keepaliveReceived (b : Bus) (fromAddr ch : Byte) (data : List Byte) (s : State) : Result :=
  if s.delivers b then
    if b = s.activeBus then
      if s.address = Config.keepAliveAddress then .next (s.unsolReceived fromAddr ch data)
      else .next (s.keepAliveActive fromAddr ch data)
    else .next (s.keepAliveInactive fromAddr ch data)
  else .next s

/-- What a received time-sync frame does on the bus it arrives on (R294). -/
def timesyncReceived (b : Bus) (fromAddr : Byte) (data : List Byte) (s : State) : Result :=
  if s.delivers b = true ∧ b = s.activeBus ∧ s.address ≠ Config.timeSyncAddress then .next (s.timeSyncIn fromAddr data)
  else .next s

theorem exec_keepalive : exec (.keepalive p f ch d) = atPort p (unsolFrame Config.keepAliveAddress f ch d)
    (keepaliveReceived p.bus f ch d) (fun s => .next (s.unsolSent Config.keepAliveAddress ch))
    (fun s => .next (s.unsolError Config.keepAliveAddress ch)) := rfl
theorem exec_timesync : exec (.timesync p f d) = atPort p (timesyncFrame f d) (timesyncReceived p.bus f d)
    (fun s => .next (s.timeSyncSent d)) (fun s => .next (s.timeSyncError d)) := rfl

theorem exec_frameSent (b : Bus) (c : CanFrame) :
    exec (.frameSent b c) = (confirm b c · fun s => s.routeSent (frameFields c)) := rfl
theorem exec_sendError (b : Bus) (c : CanFrame) (e : SendErrorReason) :
    exec (.sendError b c e) = (confirm b c · fun s => .next (s.routeError (frameFields c))) := rfl
end

/-! ### A driver that does not deliver: log entry 15 -/

section
variable {s : State} {p : Port} {frame : LogicalFrame} {received sent error h : State → Result}

theorem atPort_silent (hd : s.delivers p.bus = false) (hr : received s = .next s) :
    atPort p frame received sent error s = .next s := by
  unfold atPort
  split
  · exact hr
  · exact confirm_silent s hd
  · exact confirm_silent s hd

theorem receiveLocal_silent {b : Bus} {a : Byte} (hd : s.delivers b = false) : receiveLocal b a s h = .next s :=
  receiveLocal_not s fun ⟨⟨hb, _⟩, _⟩ => Bool.noConfusion (hd.symm.trans hb)

theorem outgoingAt_silent (hd : s.delivers p.bus = false) : outgoingAt p frame sent error s = .next s := atPort_silent hd rfl

theorem responseAt_silent {toAddr : Byte} (hd : s.delivers p.bus = false) : responseAt p toAddr frame h s = .next s :=
  atPort_silent hd (receiveLocal_silent hd)

theorem keepaliveReceived_silent {b : Bus} {f ch : Byte} {d : List Byte} (hd : s.delivers b = false) :
    keepaliveReceived b f ch d s = .next s := by simp [keepaliveReceived, hd]

theorem timesyncReceived_silent {b : Bus} {f : Byte} {d : List Byte} (hd : s.delivers b = false) :
    timesyncReceived b f d s = .next s := by simp [timesyncReceived, hd]

theorem frameReceived_silent {b : Bus} {c : CanFrame} (hd : s.delivers b = false) :
    exec (.frameReceived b c) s = .next s := if_neg (by simp [hd])
end

/-- Settles O14: each kind's actions sit behind the gates `receiveLocal` and `confirm`, which a driver that does not
deliver leaves shut. -/
theorem closedDriversDeliverNothing : Obligations.ClosedDriversDeliverNothing := by
  intro i p s hp hd
  cases i with
  | tcRequest q t f ch d | tcReservedFt3 q t f ch d | tmRequest q t f ch d | tmReservedFt3 q t f ch d
  | sbRequest q t f n d | sbTransfer q t f n d | sbAbort q t f n d | sbReservedFt5 q t f n d | sbStatus q t f n d
  | gbRequest q t f n d | gbReservedFt1 q t f n d | gbAbort q t f n d | gbReservedFt5 q t f n d | gbStart q t f n d
  | type6Reserved q t f d | type7Reserved q t f d =>
    obtain rfl := Option.some.inj hp
    simp only [exec_tcRequest, exec_tcReservedFt3, exec_tmRequest, exec_tmReservedFt3, exec_sbRequest, exec_sbTransfer,
      exec_sbAbort, exec_sbReservedFt5, exec_sbStatus, exec_gbRequest, exec_gbReservedFt1, exec_gbAbort,
      exec_gbReservedFt5, exec_gbStart, exec_type6Reserved, exec_type7Reserved]
    exact outgoingAt_silent hd
  | tcAck q t f ch d | tcNack q t f ch d | tmAck q t f ch d | tmNack q t f ch d
  | sbAck q t f n d | sbNack q t f n d | sbReport q t f done n d
  | gbAck q t f n d | gbNack q t f n d | gbTransfer q t f n d =>
    obtain rfl := Option.some.inj hp
    simp only [exec_tcAck, exec_tcNack, exec_tmAck, exec_tmNack, exec_sbAck, exec_sbNack, exec_sbReport, exec_gbAck,
      exec_gbNack, exec_gbTransfer]
    exact responseAt_silent hd
  | unsol q t f ch d =>
    obtain rfl := Option.some.inj hp
    rw [exec_unsol]; exact atPort_silent hd (receiveLocal_silent hd)
  | keepalive q f ch d =>
    obtain rfl := Option.some.inj hp
    rw [exec_keepalive]; exact atPort_silent hd (keepaliveReceived_silent hd)
  | timesync q f d =>
    obtain rfl := Option.some.inj hp
    rw [exec_timesync]; exact atPort_silent hd (timesyncReceived_silent hd)
  | frameReceived b c =>
    obtain rfl := Option.some.inj hp
    exact frameReceived_silent hd
  | frameSent b c =>
    obtain rfl := Option.some.inj hp
    rw [exec_frameSent]; exact confirm_silent s hd
  | sendError b c e =>
    obtain rfl := Option.some.inj hp
    rw [exec_sendError]; exact confirm_silent s hd
  | _ => cases hp

/-! ### Power-on reset: R65 -/

/-- Settles O54: each field is the one `State.resetWith` writes. -/
theorem resetValues : Obligations.ResetValues := fun _ _ _ =>
  ⟨rfl, rfl, rfl, rfl, rfl, rfl, rfl, rfl, rfl, rfl, rfl, rfl⟩

/-- A closed driver that holds no frame is well formed, whatever answers it is to give (R36, R53). -/
theorem linkWF_of_empty {l : Link} (h : l.inFlight = []) : l.WF := ⟨by simp [h], fun _ => h⟩

/-- A stopped engine with closed, empty drivers and no record meets the invariant, whatever else it holds. -/
theorem inv_of_stopped {s : State} (hr : s.running = false)
    (hrec : s.tc = [] ∧ s.tm = [] ∧ s.sb = [] ∧ s.gb = [])
    (hn : s.nominal.inFlight = [] ∧ s.nominal.isOpen = false)
    (hd : s.redundant.inFlight = [] ∧ s.redundant.isOpen = false) : s.Inv := by
  obtain ⟨htc, htm, hsb, hgb⟩ := hrec
  exact ⟨by simp [State.RegistriesCanonical, Canonical, htc, htm, hsb, hgb],
    by simp [State.RecordsWF, htc, htm, hsb, hgb],
    ⟨linkWF_of_empty hn.1, linkWF_of_empty hd.1, hn.2.trans hr.symm, hd.2.trans hr.symm⟩,
    by simp [hr], fun _ => ⟨htc, htm, hsb, hgb⟩⟩

theorem inv_resetWith (addr : Byte) (ms : Word32) (p : Params) : (State.resetWith addr ms p).Inv :=
  inv_of_stopped rfl ⟨rfl, rfl, rfl, rfl⟩ ⟨rfl, rfl⟩ ⟨rfl, rfl⟩

theorem budget_resetWith (addr : Byte) (ms : Word32) (p : Params) : (State.resetWith addr ms p).Budget := by
  simp [State.Budget, State.resetWith]

/-- Settles O55: at reset there is no record and both drivers are closed and empty. -/
theorem resetMeetsTheInvariants : Obligations.ResetMeetsTheInvariants := fun addr ms p =>
  ⟨inv_resetWith addr ms p, budget_resetWith addr ms p⟩

end Sys2Proof.Machine
end

section
/-! PROOFS. Every instruction has a next state and keeps the invariant, from every state that meets it: the lemmas of
Sys2Proof/Laws/Handlers.lean lifted to the frame kinds by their shape (`atPort`), to the notifications by their routing, and
the host commands and timer fires one by one. -/

namespace Sys2Proof.Machine

/-- An action that goes on from every state that meets the invariant, to a state that meets it. -/
def Keeps (h : State → Result) : Prop := ∀ s : State, s.Inv → Kept (h s)

theorem kept_ite {c : Prop} [Decidable c] {r r' : Result} (h : c → Kept r) (h' : ¬c → Kept r') :
    Kept (if c then r else r') := by
  split
  · exact h ‹_›
  · exact h' ‹_›

theorem keeps_next : Keeps .next := fun _ hi => kept hi

theorem keeps_next_of_inv {g : State → State} (hg : ∀ s : State, s.Inv → (g s).Inv) : Keeps fun s => .next (g s) :=
  fun s hi => kept (hg s hi)

/-! ### Frame kinds -/

section
variable {p : Port} {frame : LogicalFrame} {received sent error h : State → Result} {a : Byte}

theorem keeps_confirm {b : Bus} {c : CanFrame} (hh : Keeps h) : Keeps (confirm b c · h) :=
  fun _ hi => kept_confirm hi hh

theorem keeps_receiveLocal {b : Bus} (hh : Keeps h) : Keeps (receiveLocal b a · h) :=
  fun _ hi => kept_receiveLocal hi hh

theorem keeps_atPort (hr : Keeps received) (hs : Keeps sent) (he : Keeps error) :
    Keeps (atPort p frame received sent error) := by
  intro s hi
  unfold atPort
  split
  · exact hr s hi
  · exact kept_confirm hi hs
  · exact kept_confirm hi he

theorem keeps_outgoingAt (hs : Keeps sent) (he : Keeps error) : Keeps (outgoingAt p frame sent error) :=
  keeps_atPort keeps_next hs he

theorem keeps_responseAt (hh : Keeps h) : Keeps (responseAt p a frame h) :=
  keeps_atPort (keeps_receiveLocal hh) keeps_next keeps_next
end

theorem keeps_emit (e : OutEvent) : Keeps fun s => .next (s.emit e) := keeps_next_of_inv fun _ hi => inv_emit hi e

theorem keeps_keepaliveReceived (b : Bus) (f ch : Byte) (d : List Byte) : Keeps (keepaliveReceived b f ch d) :=
  fun _ hi =>
    have hout (e : OutEvent) := kept (inv_emit hi e)
    kept_ite (fun _ => kept_ite (fun _ => kept_ite (fun _ => hout _) fun _ => hout _) fun _ => hout _) fun _ => kept hi

theorem keeps_timesyncReceived (b : Bus) (f : Byte) (d : List Byte) : Keeps (timesyncReceived b f d) :=
  fun _ hi => kept_ite (fun _ => kept (inv_emit hi _)) fun _ => kept hi

/-! ### Notifications: R291 to R299 -/

section
variable (f : LogicalFrame)

theorem keeps_tcResponse : Keeps (State.tcResponse · f) := by
  intro s hi
  unfold State.tcResponse
  cases TtFrameType.ofBits (ttFt f.command) with
  | ack => exact kept (inv_tcOnAck hi _ _)
  | nack => exact kept (inv_tcOnNack hi _ _)
  | request | reserved3 => exact kept hi

theorem keeps_tmResponse : Keeps (State.tmResponse · f) := by
  intro s hi
  unfold State.tmResponse
  cases TtFrameType.ofBits (ttFt f.command) with
  | ack => exact kept (inv_tmOnAck hi _ _ _)
  | nack => exact kept (inv_tmOnNack hi _ _)
  | request | reserved3 => exact kept hi

theorem keeps_sbResponse : Keeps (State.sbResponse · f) := by
  intro s hi
  unfold State.sbResponse
  cases SbFrameType.ofBits (blkFt f.command) with
  | ack => exact kept_sbOnAck hi _ _ _
  | nack => exact kept_sbOnNack hi _ _ _
  | report => exact kept_sbOnReport hi _ _ _
  | request | transfer | abort | reserved5 | status => exact kept hi

theorem keeps_gbResponse : Keeps (State.gbResponse · f) := by
  intro s hi
  unfold State.gbResponse
  cases GbFrameType.ofBits (blkFt f.command) with
  | ack => exact kept (inv_gbOnAck hi _ _ _)
  | nack => exact kept (inv_gbOnNack hi _ _ _)
  | transfer => exact kept_gbOnTransfer hi _ _ _
  | request | reserved1 | abort | reserved5 | start => exact kept hi

theorem keeps_dispatchByType : Keeps (State.dispatchByType · f) := by
  intro s hi
  unfold State.dispatchByType
  cases TransferType.ofBits f.transferType with
  | telecommand => exact keeps_tcResponse f s hi
  | telemetry => exact keeps_tmResponse f s hi
  | setBlock => exact keeps_sbResponse f s hi
  | getBlock => exact keeps_gbResponse f s hi
  | unsolicited => exact kept (inv_emit hi _)
  | timeSync | reserved6 | reserved7 => exact kept hi

theorem keeps_classifyActive : Keeps (State.classifyActive · f) := fun s hi =>
  kept_ite (fun _ => keeps_dispatchByType f s hi) fun _ =>
    kept_ite (fun _ => kept (inv_emit hi _)) fun _ => kept_ite (fun _ => kept (inv_emit hi _)) fun _ => kept hi

theorem keeps_classifyInactive : Keeps (State.classifyInactive · f) := fun _ hi =>
  kept_ite (fun _ => kept (inv_emit hi _)) fun _ => kept hi

theorem keeps_frameReceived (b : Bus) (c : CanFrame) : Keeps (execFrameReceived b c) := by
  intro s hi
  refine kept_ite (fun _ => ?_) fun _ => kept hi
  cases decodeFrame c with
  | none => exact kept hi
  | some f =>
    exact kept_ite (fun _ => kept hi) fun _ =>
      kept_ite (fun _ => keeps_classifyActive f s hi) fun _ => keeps_classifyInactive f s hi

theorem keeps_routeSent : Keeps (State.routeSent · f) := by
  intro s hi
  unfold State.routeSent
  cases TransferType.ofBits f.transferType with
  | timeSync | unsolicited => exact kept (inv_emit hi _)
  | telecommand =>
    cases TtFrameType.ofBits (ttFt f.command) with
    | request => exact kept (inv_tcRequestSent hi _ _)
    | ack | nack | reserved3 => exact kept hi
  | telemetry =>
    cases TtFrameType.ofBits (ttFt f.command) with
    | request => exact kept (inv_tmRequestSent hi _ _)
    | ack | nack | reserved3 => exact kept hi
  | setBlock =>
    cases SbFrameType.ofBits (blkFt f.command) with
    | request => exact kept (inv_sbRequestSent hi _)
    | transfer => exact kept_sbTransferSent hi _ _
    | status => exact kept (inv_sbStatusSent hi _)
    | abort => exact kept (inv_sbAbortSent hi _)
    | ack | nack | reserved5 | report => exact kept hi
  | getBlock =>
    cases GbFrameType.ofBits (blkFt f.command) with
    | request => exact kept (inv_gbRequestSent hi _)
    | start => exact kept (inv_gbStartSent hi _)
    | abort => exact kept (inv_gbAbortSent hi _)
    | ack | nack | reserved1 | reserved5 | transfer => exact kept hi
  | reserved6 | reserved7 => exact kept hi

theorem inv_routeError {s : State} (hi : s.Inv) : (s.routeError f).Inv := by
  unfold State.routeError
  cases TransferType.ofBits f.transferType with
  | timeSync | unsolicited => exact inv_emit hi _
  | telecommand =>
    cases TtFrameType.ofBits (ttFt f.command) with
    | request => exact inv_tcRequestError hi _ _
    | ack | nack | reserved3 => exact hi
  | telemetry =>
    cases TtFrameType.ofBits (ttFt f.command) with
    | request => exact inv_tmRequestError hi _ _
    | ack | nack | reserved3 => exact hi
  | setBlock =>
    cases SbFrameType.ofBits (blkFt f.command) with
    | request | transfer | status | abort => exact inv_sbFrameError hi _ _ _
    | ack | nack | reserved5 | report => exact hi
  | getBlock =>
    cases GbFrameType.ofBits (blkFt f.command) with
    | request | start | abort => exact inv_gbFrameError hi _ _ _
    | ack | nack | reserved1 | reserved5 | transfer => exact hi
  | reserved6 | reserved7 => exact hi
end

/-! ### Records at creation: R341, R351, R381, R441 -/

theorem unicast_of_not_broadcast {a : Byte} (h : isBroadcast a = false) : Unicast a := by
  simpa [isBroadcast, Config.timeSyncAddress, Config.keepAliveAddress, Unicast] using h

theorem newTcRec_wf {a : Byte} (ch : Byte) {d : List Byte} (retry : Byte) (ha : Unicast a) (hd : d.length ≤ 8) :
    (newTcRec a ch d retry).WF := ⟨ha, hd, .inl ⟨rfl, rfl, rfl⟩⟩

theorem newTmRec_wf {a : Byte} (ch retry : Byte) (ha : Unicast a) : (newTmRec a ch retry).WF :=
  ⟨ha, .inl ⟨rfl, rfl, rfl⟩⟩

/-- A block of at most 512 bytes has a frame count that its byte holds (R241). -/
theorem toNat_sbBlocks {n : Nat} (h : n ≤ 512) : (BitVec.ofNat 8 (sbBlocks n)).toNat = sbBlocks n := by
  rw [BitVec.toNat_ofNat]
  unfold sbBlocks ceilDiv8
  omega

theorem newSbRec_wf {a : Byte} (v : Word64) {d : List Byte} (retry : Byte) (ms : Word32) (reportRetry : Byte)
    (ha : Unicast a) (hd : 1 ≤ d.length ∧ d.length ≤ 512) : (newSbRec a v d retry ms reportRetry).WF := by
  have hb : (newSbRec a v d retry ms reportRetry).blocks.toNat = sbBlocks d.length := toNat_sbBlocks hd.2
  have hv : isValid (newSbRec a v d retry ms reportRetry).bitmap (sbBlocks d.length) = true := isValid_bmZero _
  exact ⟨ha, encodeStart_length v, hd, hb, hb ▸ hv, by simp [newSbRec], by simp [newSbRec],
    by simp [newSbRec, Timer.isArmed], by simp [newSbRec, Timer.isArmed]⟩

theorem newGbRec_wf {p : Params} {a : Byte} (v : Word64) {n : Nat} {bitmap : List Byte} (retry startRetry : Byte)
    (ha : Unicast a) (hn : 1 ≤ n ∧ n ≤ 64) (hv : isValid bitmap n = true) :
    (newGbRec a v n bitmap retry startRetry).WF p := by
  have hb : (newGbRec a v n bitmap retry startRetry).blocks.toNat = n := by
    rw [newGbRec, BitVec.toNat_ofNat]; omega
  exact ⟨ha, encodeStart_length v, by rwa [hb], by rwa [hb], by rw [hb]; simp [newGbRec], by simp [newGbRec],
    by simp [newGbRec, Timer.isArmed], by simp [newGbRec], by simp [newGbRec]⟩

/-! ### Host commands that start a transfer or send a frame: R529 -/

/-- A command that refuses under `c` answers false and changes no state (R529). -/
theorem kept_unless {s : State} {c : Prop} [Decidable c] {r : Result} (hi : s.Inv) (h : ¬c → Kept r) :
    Kept (if c then .next (s.giveBool false) else r) :=
  kept_ite (fun _ => kept (inv_giveBool hi false)) h

theorem keeps_sendTc (a ch : Byte) (d : List Byte) (retry : Byte) : Keeps (execSendTc a ch d retry) := by
  intro s hi
  refine kept_unless hi fun hrun => kept_unless hi fun ha => kept_unless hi fun _ => kept_unless hi fun hd => ?_
  have hd : d.length ≤ 8 := by omega
  have hsent : (s.afterSend (tcRequestFrame s.address (newTcRec a ch d retry))).Inv := inv_afterSend hi hd
  have hwf : (newTcRec a ch d retry).WF := newTcRec_wf ch retry (unicast_of_not_broadcast (by simpa using ha)) hd
  exact kept_ite (fun _ => kept (inv_giveBool (inv_putTc hsent (by simpa using hrun) hwf) true))
    fun _ => kept (inv_giveBool (inv_emit hsent _) false)

theorem keeps_receiveTm (a ch retry : Byte) : Keeps (execReceiveTm a ch retry) := by
  intro s hi
  refine kept_unless hi fun hrun => kept_unless hi fun ha => kept_unless hi fun _ => ?_
  have hsent : (s.afterSend (tmRequestFrame s.address (newTmRec a ch retry))).Inv := inv_afterSend hi (Nat.zero_le 8)
  have hwf : (newTmRec a ch retry).WF := newTmRec_wf ch retry (unicast_of_not_broadcast (by simpa using ha))
  exact kept_ite (fun _ => kept (inv_giveBool (inv_putTm hsent (by simpa using hrun) hwf) true))
    fun _ => kept (inv_giveBool (inv_emit hsent _) false)

theorem keeps_sendBlock (a : Byte) (v : Word64) (d : List Byte) (retry : Byte) (ms : Word32) (reportRetry : Byte) :
    Keeps (execSendBlock a v d retry ms reportRetry) := by
  intro s hi
  refine kept_unless hi fun hrun => kept_unless hi fun ha => kept_unless hi fun _ => kept_unless hi fun hd => ?_
  have hwf : (newSbRec a v d retry ms reportRetry).WF :=
    newSbRec_wf v retry ms reportRetry (unicast_of_not_broadcast (by simpa using ha)) (by omega)
  have hsent : (s.afterSend (sbRequestFrame s.address (newSbRec a v d retry ms reportRetry))).Inv :=
    inv_afterSend hi (encodeStart_length v).2
  exact kept_ite (fun _ => kept (inv_giveBool (inv_putSb hsent (by simpa using hrun) hwf) true))
    fun _ => kept (inv_giveBool (inv_emit hsent _) false)

theorem keeps_receiveBlock (a : Byte) (v : Word64) (n : Nat) (retry startRetry : Byte) :
    Keeps (execReceiveBlock a v n retry startRetry) := by
  intro s hi
  refine kept_unless hi fun hrun => kept_unless hi fun ha => kept_unless hi fun _ => kept_unless hi fun hn => ?_
  rw [setFirstN_ok (by simpa using bmSize_le n)]
  have hwf := newGbRec_wf (p := s.params) v retry startRetry (unicast_of_not_broadcast (by simpa using ha))
    (by omega) (isValid_setFirstN n)
  have hsent (bitmap : List Byte) :
      (s.afterSend (gbRequestFrame s.address (newGbRec a v n bitmap retry startRetry))).Inv :=
    inv_afterSend hi (encodeStart_length v).2
  exact kept_ite (fun _ => kept (inv_giveBool (inv_putGb (hsent _) (by simpa using hrun) (by simpa using hwf)) true))
    fun _ => kept (inv_giveBool (inv_emit (hsent _) _) false)

theorem keeps_sendTimeSync (time : Word64) : Keeps (execSendTimeSync time) := by
  intro s hi
  refine kept_unless hi fun _ => ?_
  have hsent : (s.afterSend (timesyncOut s.address time)).Inv := inv_afterSend hi (leBytes8_length time).le
  exact kept_ite (fun _ => kept (inv_giveBool hsent true)) fun _ => kept (inv_giveBool (inv_emit hsent _) false)

theorem keeps_sendUnsolicited (a ch : Byte) (d : List Byte) : Keeps (execSendUnsolicited a ch d) := by
  intro s hi
  refine kept_unless hi fun _ => kept_unless hi fun hd => ?_
  have hsent : (s.afterSend (unsolOut s.address a ch d)).Inv :=
    inv_afterSend hi (Nat.le_of_not_lt fun h => hd (.inr h))
  exact kept_ite (fun _ => kept (inv_giveBool hsent true)) fun _ => kept (inv_giveBool (inv_emit hsent _) false)

/-! ### Lifecycle: R300, R520 to R525 -/

/-- What the invariant says of a stopped engine: no record, and drivers that are closed and empty. -/
theorem stopped_of_inv {s : State} (hi : s.Inv) (hr : s.running = false) :
    (s.tc = [] ∧ s.tm = [] ∧ s.sb = [] ∧ s.gb = []) ∧ (s.nominal.inFlight = [] ∧ s.nominal.isOpen = false) ∧
      (s.redundant.inFlight = [] ∧ s.redundant.isOpen = false) := by
  obtain ⟨_, _, ⟨hn, hd, hno, hdo⟩, _, hnone⟩ := hi
  have hno := hno.trans hr
  have hdo := hdo.trans hr
  exact ⟨hnone hr, ⟨hn.2 hno, hno⟩, hd.2 hdo, hdo⟩

/-- Start from a stopped engine: running with two empty drivers when both open, stopped with none open otherwise. -/
theorem inv_startWith {s : State} (hi : s.Inv) (hr : s.running = false) {a : Byte} (ms : Word32) (nom red : PortSettings)
    (ha : Unicast a) : (s.startWith a ms nom red).Inv := by
  obtain ⟨hrec, hn, hd⟩ := stopped_of_inv hi hr
  obtain ⟨hcanonical, hwf, _⟩ := hi
  unfold State.startWith
  split
  · split
    · exact ⟨hcanonical, hwf, ⟨linkWF_of_empty rfl, linkWF_of_empty rfl, rfl, rfl⟩, fun _ => ha,
        fun h => nomatch h⟩
    · exact inv_of_stopped hr hrec ⟨rfl, rfl⟩ hd
  · exact inv_of_stopped hr hrec hn hd

theorem keeps_start (a : Byte) (ms : Word32) (cfg : Settings) : Keeps (execStart a ms cfg) := by
  intro s hi
  refine kept_unless hi fun ha => ?_
  cases cfg with
  | nonSerial => exact kept (inv_giveBool hi false)
  | serial nom red =>
    exact kept_unless hi fun hr =>
      kept (inv_startWith hi (by simpa using hr) ms nom red (unicast_of_not_broadcast (by simpa using ha)))

theorem keeps_stop : Keeps execStop := fun _ hi =>
  kept_ite (fun _ => kept (inv_of_stopped rfl ⟨rfl, rfl, rfl, rfl⟩ ⟨rfl, rfl⟩ ⟨rfl, rfl⟩)) fun _ => kept hi

theorem keeps_canBusSwitch : Keeps execCanBusSwitch := fun s hi =>
  kept_ite (fun _ => kept (show s.clearRegistries.Inv from inv_clearRegistries hi)) fun _ => kept hi

/-! ### Timer fires: R50, R345, R355, R388, R420, R471 -/

/-- An armed SB watchdog belongs to a record that waits (R52). -/
theorem sbWF_rx_of_armed {r : SbRec} (hw : r.WF) (h : r.wd.isArmed = true) : r.rx ≠ .idle := by
  obtain ⟨_, _, _, _, _, _, _, hwd, _⟩ := hw
  exact hwd.1 h

theorem gbWF_rx_of_armed {p : Params} {r : GbRec} (hw : r.WF p) (h : r.wd.isArmed = true) : r.rx ≠ .idle := by
  obtain ⟨_, _, _, _, _, _, hwd, _, _⟩ := hw
  exact hwd h

/-- When its report delay fires a record sends STATUS with both timers stopped (R52, R388). -/
theorem sbWF_status_of_delay {r : SbRec} (hw : r.WF) (h : r.rd.isArmed = true) :
    SbRec.WF { r with rd := .idle, tx := .sendingStatusRequest } := by
  obtain ⟨ha, hs, hd, hb, hv, hex, _, hwd, hrd⟩ := hw
  have hrx : r.rx = .idle := by
    by_contra hx
    exact SbTx.noConfusion ((hex.2 hx).symm.trans (hrd.1 h))
  exact ⟨ha, hs, hd, hb, hv, by simp [hrx], by simp, hwd, by simp [Timer.isArmed]⟩

theorem keeps_wdFireTc (a ch : Byte) : Keeps (execWdFireTc a ch) := by
  intro s hi
  unfold execWdFireTc
  split
  · rename_i r hl
    obtain ⟨ha, hd, _⟩ := inv_tcWF hi hl
    exact kept_ite (fun _ => kept (inv_tcRetry hi (inv_running_of_tc hi hl) hd ⟨ha, hd, .inl ⟨rfl, rfl, rfl⟩⟩))
      fun _ => kept hi
  · exact kept hi

theorem keeps_wdFireTm (a ch : Byte) : Keeps (execWdFireTm a ch) := by
  intro s hi
  unfold execWdFireTm
  split
  · rename_i r hl
    obtain ⟨ha, _⟩ := inv_tmWF hi hl
    exact kept_ite (fun _ => kept (inv_tmRetry hi (inv_running_of_tm hi hl) ⟨ha, .inl ⟨rfl, rfl, rfl⟩⟩))
      fun _ => kept hi
  · exact kept hi

theorem keeps_wdFireSb (a : Byte) : Keeps (execWdFireSb a) := by
  intro s hi
  unfold execWdFireSb
  split
  · rename_i r hl
    refine kept_ite (fun h => ?_) fun _ => kept hi
    have hrx : r.rx ≠ .idle := sbWF_rx_of_armed (inv_sbWF hi hl) (Bool.and_eq_true_iff.1 h).2
    cases s.params.watchdogDispatch with
    | literal => exact kept (inv_sbRetryStatus hi hl hrx)
    | perState =>
      dsimp only
      split
      · exact kept (inv_sbRetryRequest hi hl hrx)
      · exact kept (inv_sbRetryStatus hi hl hrx)
      · exact kept_sbRetryAbort hi hl hrx
      · exact kept_sbRetryAbort hi hl hrx
  · exact kept hi

theorem keeps_wdFireGb (a : Byte) : Keeps (execWdFireGb a) := by
  intro s hi
  unfold execWdFireGb
  split
  · rename_i r hl
    refine kept_ite (fun h => ?_) fun _ => kept hi
    have hrx : r.rx ≠ .idle := gbWF_rx_of_armed (inv_gbWF hi hl) (Bool.and_eq_true_iff.1 h).2
    cases s.params.watchdogDispatch with
    | literal => exact kept (inv_gbRetryRequest hi hl)
    | perState =>
      dsimp only
      split
      · exact kept (inv_gbRetryRequest hi hl)
      · exact kept (inv_gbRetryStart hi hl)
      · exact kept (inv_gbRetryAbort hi hl ‹_›)
      · exact absurd ‹_› hrx
  · exact kept hi

theorem keeps_rdFireSb (a : Byte) : Keeps (execRdFireSb a) := by
  intro s hi
  unfold execRdFireSb
  split
  · rename_i r hl
    refine kept_ite (fun h => ?_) fun _ => kept hi
    have hrd : r.rd.isArmed = true := (Bool.and_eq_true_iff.1 h).2
    refine kept (inv_sbHandOff hi (inv_running_of_sb hi hl) (Nat.zero_le 8) ?_)
    exact sbWF_status_of_delay (r := r) (inv_sbWF hi hl) hrd
  · exact kept hi

/-! ### Every instruction -/

/-- From every state that meets the invariant an instruction has a next state, which meets it. -/
theorem exec_keeps (i : Instr) : Keeps (exec i) := by
  cases i with
  -- kinds that are ignored at every port
  | tcReservedFt3 p t f ch d | tmReservedFt3 p t f ch d | sbReservedFt5 p t f n d | gbReservedFt1 p t f n d
  | gbReservedFt5 p t f n d | type6Reserved p t f d | type7Reserved p t f d =>
    simp only [exec_tcReservedFt3, exec_tmReservedFt3, exec_sbReservedFt5, exec_gbReservedFt1, exec_gbReservedFt5,
      exec_type6Reserved, exec_type7Reserved]
    exact keeps_outgoingAt keeps_next keeps_next
  -- telecommand and telemetry
  | tcRequest p t f ch d =>
    rw [exec_tcRequest]
    exact keeps_outgoingAt (keeps_next_of_inv fun _ hi => inv_tcRequestSent hi t ch)
      (keeps_next_of_inv fun _ hi => inv_tcRequestError hi t ch)
  | tcAck p t f ch d => rw [exec_tcAck]; exact keeps_responseAt (keeps_next_of_inv fun _ hi => inv_tcOnAck hi f ch)
  | tcNack p t f ch d => rw [exec_tcNack]; exact keeps_responseAt (keeps_next_of_inv fun _ hi => inv_tcOnNack hi f ch)
  | tmRequest p t f ch d =>
    rw [exec_tmRequest]
    exact keeps_outgoingAt (keeps_next_of_inv fun _ hi => inv_tmRequestSent hi t ch)
      (keeps_next_of_inv fun _ hi => inv_tmRequestError hi t ch)
  | tmAck p t f ch d => rw [exec_tmAck]; exact keeps_responseAt (keeps_next_of_inv fun _ hi => inv_tmOnAck hi f ch d)
  | tmNack p t f ch d => rw [exec_tmNack]; exact keeps_responseAt (keeps_next_of_inv fun _ hi => inv_tmOnNack hi f ch)
  -- set block
  | sbRequest p t f n d =>
    rw [exec_sbRequest]
    exact keeps_outgoingAt (keeps_next_of_inv fun _ hi => inv_sbRequestSent hi t)
      (keeps_next_of_inv fun _ hi => inv_sbFrameError hi t _ _)
  | sbTransfer p t f n d =>
    rw [exec_sbTransfer]
    exact keeps_outgoingAt (fun _ hi => kept_sbTransferSent hi t n)
      (keeps_next_of_inv fun _ hi => inv_sbFrameError hi t _ _)
  | sbStatus p t f n d =>
    rw [exec_sbStatus]
    exact keeps_outgoingAt (keeps_next_of_inv fun _ hi => inv_sbStatusSent hi t)
      (keeps_next_of_inv fun _ hi => inv_sbFrameError hi t _ _)
  | sbAbort p t f n d =>
    rw [exec_sbAbort]
    exact keeps_outgoingAt (keeps_next_of_inv fun _ hi => inv_sbAbortSent hi t)
      (keeps_next_of_inv fun _ hi => inv_sbFrameError hi t _ _)
  | sbAck p t f n d => rw [exec_sbAck]; exact keeps_responseAt fun _ hi => kept_sbOnAck hi f n d
  | sbNack p t f n d => rw [exec_sbNack]; exact keeps_responseAt fun _ hi => kept_sbOnNack hi f n d
  | sbReport p t f done n d => rw [exec_sbReport]; exact keeps_responseAt fun _ hi => kept_sbOnReport hi f done d
  -- get block
  | gbRequest p t f n d =>
    rw [exec_gbRequest]
    exact keeps_outgoingAt (keeps_next_of_inv fun _ hi => inv_gbRequestSent hi t)
      (keeps_next_of_inv fun _ hi => inv_gbFrameError hi t _ _)
  | gbStart p t f n d =>
    rw [exec_gbStart]
    exact keeps_outgoingAt (keeps_next_of_inv fun _ hi => inv_gbStartSent hi t)
      (keeps_next_of_inv fun _ hi => inv_gbFrameError hi t _ _)
  | gbAbort p t f n d =>
    rw [exec_gbAbort]
    exact keeps_outgoingAt (keeps_next_of_inv fun _ hi => inv_gbAbortSent hi t)
      (keeps_next_of_inv fun _ hi => inv_gbFrameError hi t _ _)
  | gbAck p t f n d => rw [exec_gbAck]; exact keeps_responseAt (keeps_next_of_inv fun _ hi => inv_gbOnAck hi f n d)
  | gbNack p t f n d => rw [exec_gbNack]; exact keeps_responseAt (keeps_next_of_inv fun _ hi => inv_gbOnNack hi f n d)
  | gbTransfer p t f n d => rw [exec_gbTransfer]; exact keeps_responseAt fun _ hi => kept_gbOnTransfer hi f n d
  -- auxiliary frames
  | unsol p t f ch d =>
    rw [exec_unsol]
    exact keeps_atPort (keeps_receiveLocal (keeps_emit _)) (keeps_emit _) (keeps_emit _)
  | keepalive p f ch d =>
    rw [exec_keepalive]
    exact keeps_atPort (keeps_keepaliveReceived _ f ch d) (keeps_emit _) (keeps_emit _)
  | timesync p f d =>
    rw [exec_timesync]
    exact keeps_atPort (keeps_timesyncReceived _ f d) (keeps_emit _) (keeps_emit _)
  -- host commands
  | start a ms cfg => exact keeps_start a ms cfg
  | stop => exact keeps_stop
  | sendTc a ch d retry => exact keeps_sendTc a ch d retry
  | receiveTm a ch retry => exact keeps_receiveTm a ch retry
  | sendBlock a v d retry ms reportRetry => exact keeps_sendBlock a v d retry ms reportRetry
  | receiveBlock a v n retry startRetry => exact keeps_receiveBlock a v n retry startRetry
  | sendTimeSync time => exact keeps_sendTimeSync time
  | sendUnsolicited a ch d => exact keeps_sendUnsolicited a ch d
  | canBusSwitch => exact keeps_canBusSwitch
  | getActiveBus | getAddress => exact keeps_next_of_inv fun _ hi => inv_give hi _
  -- notifications and timer fires
  | frameReceived b c => exact keeps_frameReceived b c
  | frameSent b c => rw [exec_frameSent]; exact keeps_confirm (keeps_routeSent (frameFields c))
  | sendError b c e =>
    rw [exec_sendError]
    exact keeps_confirm (keeps_next_of_inv fun _ hi => inv_routeError (frameFields c) hi)
  | wdFireTc a ch => exact keeps_wdFireTc a ch
  | wdFireTm a ch => exact keeps_wdFireTm a ch
  | wdFireSb a => exact keeps_wdFireSb a
  | wdFireGb a => exact keeps_wdFireGb a
  | rdFireSb a => exact keeps_rdFireSb a

/-- Taking the next event off the list of posted events keeps the invariant, which does not speak of that list. -/
theorem inv_fetch {s u : State} {i : Instr} (hi : s.Inv) (h : s.fetch = some (i, u)) : u.Inv := by
  unfold State.fetch at h
  split at h
  · cases h
  · cases h; exact hi

theorem step_inv {s t : State} (hi : s.Inv) (h : step s = .next t) : t.Inv := by
  unfold step at h
  split at h
  · cases h; exact hi
  · rename_i i u hf
    split at h
    · obtain ⟨t', ht', hinv⟩ := exec_keeps i u (inv_fetch hi hf)
      cases ht'.symm.trans h
      exact hinv
    · cases h

/-- Settles O57: the step delivers one event, and every instruction keeps the invariant. -/
theorem stepKeepsTheInvariant : Obligations.StepKeepsTheInvariant := fun _ _ => step_inv

end Sys2Proof.Machine
end

section
/-! PROOFS. The bitmap and buffer primitives (R95, R261): outside its range each raises the fault that the spec names, inside
it each gives a value, and a buffer access reads and writes exactly the bytes of its range. -/

namespace Sys2Proof.Machine

/-! ### Outside the range -/

section
variable {b buf v : List Byte} {k off n : Nat}

theorem setBit_error (h : 8 * b.length ≤ k) : setBit b k = .error (.bitmapIndex k b.length) := if_neg (Nat.not_lt.2 h)
theorem clearBit_error (h : 8 * b.length ≤ k) : clearBit b k = .error (.bitmapIndex k b.length) := if_neg (Nat.not_lt.2 h)
theorem isBitSet_error (h : 8 * b.length ≤ k) : isBitSet b k = .error (.bitmapIndex k b.length) := if_neg (Nat.not_lt.2 h)

theorem memRead_error (h : buf.length < off + n) : memRead buf off n = .error (.bufferRange off n) := if_neg (Nat.not_le.2 h)
theorem memWrite_error (h : buf.length < off + v.length) : memWrite buf off v = .error (.bufferRange off v.length) :=
  if_neg (Nat.not_le.2 h)

/-! ### Inside the range: the bytes of a buffer -/

/-- `MemRead` gives `n` bytes, the bytes from `off` on. -/
theorem memRead_bytes (h : off + n ≤ buf.length) :
    ∃ r, memRead buf off n = .ok r ∧ r.length = n ∧ ∀ k < n, r.getD k 0 = buf.getD (off + k) 0 := by
  refine ⟨_, memRead_ok h, ?_, fun k hk => ?_⟩
  · rw [List.length_take, List.length_drop]; omega
  · simp [List.getD_eq_getElem?_getD, hk]

/-- The byte at `k` of a buffer that `MemWrite` has written: the new one inside the range, the old one around it. -/
theorem getD_written (h : off + v.length ≤ buf.length) (k : Nat) :
    (buf.take off ++ v ++ buf.drop (off + v.length)).getD k 0 =
      if k < off ∨ off + v.length ≤ k then buf.getD k 0 else v.getD (k - off) 0 := by
  have hoff : (buf.take off).length = off := List.length_take_of_le (by omega)
  simp only [List.getD_eq_getElem?_getD, List.append_assoc]
  rcases lt_or_ge k off with hk | hk
  · rw [List.getElem?_append_left (by omega), List.getElem?_take, if_pos hk, if_pos (.inl hk)]
  rw [List.getElem?_append_right (by omega), hoff]
  rcases lt_or_ge k (off + v.length) with hv | hv
  · rw [List.getElem?_append_left (by omega), if_neg (by omega)]
  · rw [List.getElem?_append_right (by omega), List.getElem?_drop, if_pos (.inr hv)]
    congr 2; omega

/-- `MemWrite` keeps the length, writes the bytes of its range and leaves every other byte. -/
theorem memWrite_bytes (h : off + v.length ≤ buf.length) :
    ∃ buf', memWrite buf off v = .ok buf' ∧ buf'.length = buf.length ∧
      (∀ k < v.length, buf'.getD (off + k) 0 = v.getD k 0) ∧
      ∀ k, k < off ∨ off + v.length ≤ k → buf'.getD k 0 = buf.getD k 0 := by
  refine ⟨_, memWrite_ok h, ?_, fun k hk => ?_, fun k hk => ?_⟩
  · simp only [List.length_append, List.length_take, List.length_drop]; omega
  · rw [getD_written h, if_neg (by omega), Nat.add_sub_cancel_left]
  · rw [getD_written h, if_pos hk]
end

/-- Settles O11: each primitive tests its range first, so it raises the named fault outside it and answers inside it. -/
theorem primitivesFaultOutsideTheirRange : Obligations.PrimitivesFaultOutsideTheirRange :=
  ⟨fun _ _ h => ⟨setBit_error h, clearBit_error h, isBitSet_error h⟩,
    fun _ _ h => ⟨⟨_, setBit_ok h⟩, ⟨_, clearBit_ok h⟩, _, isBitSet_ok h⟩,
    fun _ _ _ => memRead_error, fun _ _ _ => memWrite_error, fun _ _ _ => memRead_bytes, fun _ _ _ => memWrite_bytes⟩

end Sys2Proof.Machine
end

section
/-! PROOFS. A step runs the instruction at the head of the posted list, and no instruction stops the engine. A received frame
that decodes runs its frame kind (R120, R291): dispatcher and decoder split on the same transfer type and frame type, and for
each of them what the dispatcher asks of bus and address is the gate that stands before the kind's meaning. -/

namespace Sys2Proof.Machine

/-! ### The transfer type that the dispatcher reads: R60, R130 -/

theorem eq_bits_iff {v : BitVec 3} {t : TransferType} : v = t.bits ↔ TransferType.ofBits v = t :=
  ⟨fun h => h ▸ TransferType.ofBits_bits t, fun h => h ▸ (TransferType.bits_ofBits v).symm⟩

theorem six_le_toNat_iff {v : BitVec 3} :
    6 ≤ v.toNat ↔ TransferType.ofBits v = .reserved6 ∨ TransferType.ofBits v = .reserved7 := by
  revert v; decide

/-! ### What the dispatcher does with a received frame of each type: R291 to R296 -/

/-- The dispatcher on a logical frame that comes in on bus `b`; `exec_frameReceived` ties it to the notification. -/
def receiveFrame (b : Bus) (f : LogicalFrame) (s : State) : Result :=
  if s.delivers b then
    if 6 ≤ f.transferType.toNat then .next s
    else if b = s.activeBus then s.classifyActive f
    else s.classifyInactive f
  else .next s

theorem exec_frameReceived {b : Bus} {c : CanFrame} (hx : c.extid = true) (hr : c.rtr = false) :
    exec (.frameReceived b c) = receiveFrame b (frameFields c) := by
  have hdec : decodeFrame c = some (frameFields c) := by simp [decodeFrame, hx, hr]
  funext s
  simp only [exec, execFrameReceived, hdec, receiveFrame]

theorem receiveLocal_eq_ite (b : Bus) (a : Byte) (s : State) (h : State → Result) :
    receiveLocal b a s h =
      if s.delivers b then if b = s.activeBus then if a = s.address then h s else .next s else .next s else .next s := by
  simp only [receiveLocal, ite_and]

theorem receiveLocal_next (b : Bus) (a : Byte) (s : State) : receiveLocal b a s .next = .next s := ite_self _

section
variable {b : Bus} {f : LogicalFrame} (s : State)

theorem receiveFrame_reserved (h : 6 ≤ f.transferType.toNat) : receiveFrame b f s = .next s := by
  rw [receiveFrame, if_pos h, ite_self]

/-- A frame of type 1 to 5 that is no keep-alive is handled for the local node on the active bus, and else ignored. -/
theorem receiveFrame_unicast {t : TransferType} (hf : TransferType.ofBits f.transferType = t)
    (hres : t ≠ .reserved6 ∧ t ≠ .reserved7) (hsync : t ≠ .timeSync)
    (hkeep : ¬(f.toAddress = Config.keepAliveAddress ∧ t = .unsolicited)) :
    receiveFrame b f s = receiveLocal b f.toAddress s (·.dispatchByType f) := by
  subst hf
  have h6 : ¬6 ≤ f.transferType.toNat := fun h => (six_le_toNat_iff.1 h).elim hres.1 hres.2
  rw [← eq_bits_iff] at hkeep
  have ht : ¬(f.toAddress = Config.timeSyncAddress ∧ f.transferType = TransferType.timeSync.bits) :=
    fun h => hsync (eq_bits_iff.1 h.2)
  rw [receiveLocal_eq_ite, receiveFrame, State.classifyActive, State.classifyInactive, if_neg h6, if_neg hkeep, if_neg ht,
    if_neg hkeep]

theorem receiveFrame_keepalive (hf : TransferType.ofBits f.transferType = .unsolicited)
    (ha : f.toAddress = Config.keepAliveAddress) :
    receiveFrame b f s = keepaliveReceived b f.fromAddress (ttChannel f.command) f.data s := by
  have h6 : ¬6 ≤ f.transferType.toNat := by simp [six_le_toNat_iff, hf]
  have hk : f.toAddress = Config.keepAliveAddress ∧ f.transferType = TransferType.unsolicited.bits :=
    ⟨ha, eq_bits_iff.2 hf⟩
  have hd : s.dispatchByType f = .next (s.unsolReceived f.fromAddress (ttChannel f.command) f.data) := by
    simp only [State.dispatchByType, hf]
  rw [receiveFrame, State.classifyActive, State.classifyInactive, if_neg h6, if_pos hk, if_pos hk, hd, ha,
    keepaliveReceived]
  simp only [eq_comm (a := Config.keepAliveAddress)]

theorem receiveFrame_timesync (hf : TransferType.ofBits f.transferType = .timeSync)
    (ha : f.toAddress = Config.timeSyncAddress) :
    receiveFrame b f s = timesyncReceived b f.fromAddress f.data s := by
  have h6 : ¬6 ≤ f.transferType.toNat := by simp [six_le_toNat_iff, hf]
  have hk : ¬(f.toAddress = Config.keepAliveAddress ∧ f.transferType = TransferType.unsolicited.bits) := by
    simp [eq_bits_iff, hf]
  have ht : f.toAddress = Config.timeSyncAddress ∧ f.transferType = TransferType.timeSync.bits :=
    ⟨ha, eq_bits_iff.2 hf⟩
  have hd : s.dispatchByType f = .next s := by simp only [State.dispatchByType, hf]
  rw [receiveFrame, State.classifyActive, State.classifyInactive, if_neg h6, if_neg hk, if_pos ht, if_neg hk, hd, ha,
    timesyncReceived]
  simp only [eq_comm (a := Config.timeSyncAddress), ite_and, ne_eq, ite_not]

/-! ### The meaning of the decoded kind: R120, R292 -/

theorem exec_decodeTc : exec (decodeTc ⟨b, .received⟩ f) s = receiveLocal b f.toAddress s (·.tcResponse f) := by
  unfold decodeTc State.tcResponse
  cases TtFrameType.ofBits (ttFt f.command) with
  | ack | nack => rfl
  | request | reserved3 => exact (receiveLocal_next b f.toAddress s).symm

theorem exec_decodeTm : exec (decodeTm ⟨b, .received⟩ f) s = receiveLocal b f.toAddress s (·.tmResponse f) := by
  unfold decodeTm State.tmResponse
  cases TtFrameType.ofBits (ttFt f.command) with
  | ack | nack => rfl
  | request | reserved3 => exact (receiveLocal_next b f.toAddress s).symm

theorem exec_decodeSb : exec (decodeSb ⟨b, .received⟩ f) s = receiveLocal b f.toAddress s (·.sbResponse f) := by
  unfold decodeSb State.sbResponse
  cases SbFrameType.ofBits (blkFt f.command) with
  | ack | nack | report => rfl
  | request | transfer | abort | reserved5 | status => exact (receiveLocal_next b f.toAddress s).symm

theorem exec_decodeGb : exec (decodeGb ⟨b, .received⟩ f) s = receiveLocal b f.toAddress s (·.gbResponse f) := by
  unfold decodeGb State.gbResponse
  cases GbFrameType.ofBits (blkFt f.command) with
  | ack | nack | transfer => rfl
  | request | reserved1 | abort | reserved5 | start => exact (receiveLocal_next b f.toAddress s).symm

/-- Each type either is a broadcast, is handled for the local node, or is reserved. -/
theorem exec_of_decodeKind {i : Instr} (h : decodeKind ⟨b, .received⟩ f = .ok i) : exec i s = receiveFrame b f s := by
  unfold decodeKind at h
  generalize hf : TransferType.ofBits f.transferType = t at h
  cases t with
  | timeSync =>
    dsimp only at h
    split at h
    · cases h; exact (receiveFrame_timesync s hf ‹_›).symm
    · cases h
  | unsolicited =>
    dsimp only at h
    split at h
    · cases h; exact (receiveFrame_keepalive s hf ‹_›).symm
    · cases h
      rw [receiveFrame_unicast s hf (by decide) (by decide) fun hk => ‹¬_› hk.1]
      simp only [State.dispatchByType, hf]
      rfl
  | telecommand | telemetry | setBlock | getBlock =>
    cases h
    simp only [exec_decodeTc, exec_decodeTm, exec_decodeSb, exec_decodeGb,
      receiveFrame_unicast s hf (by decide) (by decide) (by simp), State.dispatchByType, hf]
  | reserved6 | reserved7 =>
    cases h
    exact (receiveFrame_reserved s (six_le_toNat_iff.2 (by simp [hf]))).symm
end

theorem decode_ok {p : Port} {c : CanFrame} {i : Instr} (h : decode p c = .ok i) :
    c.extid = true ∧ c.rtr = false ∧ decodeKind p (frameFields c) = .ok i := by
  unfold decode at h
  split at h
  · cases h
  · split at h
    · cases h
    · exact ⟨by simpa using ‹¬c.extid = false›, by simpa using ‹¬c.rtr = true›, h⟩

/-- A received frame that decodes runs its frame kind, from every state (R120, R291). -/
theorem exec_frameReceived_of_decode {b : Bus} {c : CanFrame} {i : Instr} (s : State)
    (h : decode ⟨b, .received⟩ c = .ok i) : exec (.frameReceived b c) s = exec i s := by
  obtain ⟨hx, hr, hkind⟩ := decode_ok h
  rw [exec_frameReceived hx hr, exec_of_decodeKind s hkind]

/-! ### One step: R85, R91, R599 -/

theorem step_of_pending_nil {s : State} (h : s.pending = []) : step s = .next s := by simp only [step, State.fetch, h]

theorem step_of_pending_cons {s : State} {i : Instr} {rest : List Instr} (h : s.pending = i :: rest) :
    step s = if i.wellFormed then exec i { s with pending := rest } else .refused .illFormed := by
  simp only [step, State.fetch, h]

/-- Settles O56: the step is `exec` on the head of the list, which for a received frame is its decoded kind. -/
theorem stepRunsThePostedInstruction : Obligations.StepRunsThePostedInstruction := by
  refine ⟨fun s i rest hp hw => ?_, fun s b c i rest hp hlen hdec => ?_, fun s => step_of_pending_nil,
    fun s i rest hp hw => ?_⟩
  · rw [step_of_pending_cons hp, if_pos hw]
  · have hw : (Instr.frameReceived b c).wellFormed = true := decide_eq_true hlen
    rw [step_of_pending_cons hp, if_pos hw, exec_frameReceived_of_decode _ hdec]
  · rw [step_of_pending_cons hp, if_neg (by simp [hw])]

/-- Settles O58: `exec_keeps` gives the next state, for each instruction by its handlers' lemmas. -/
theorem noInstructionStops : Obligations.NoInstructionStops := fun s i hi =>
  have ⟨t, hnext, _⟩ := exec_keeps i s hi
  ⟨t, hnext⟩

end Sys2Proof.Machine
end

section
/-! PROOFS. The decoder against the table of frame kinds (R120, R121, R130 to R137): the identifier of a decoded frame has
its kind's row under the mask, bits 31:29 play no part, and the frame that a kind encodes to decodes to that kind again. -/

namespace Sys2Proof.Machine

/-! ### An identifier under the masks of the table: R119, R121 -/

/-- An identifier with bits 31:29 zero is built from its fields. -/
theorem encodeId_fields {id : Word32} (h : id.toNat < 2 ^ 29) :
    encodeId (idToAddress id) (idTransferType id) (idFromAddress id) (idCommand id) = id := by
  apply BitVec.eq_of_toNat_eq
  rw [encodeId_toNat, idToAddress_toNat, idTransferType_toNat, idFromAddress_toNat, idCommand_toNat]
  omega

/-- A mask acts on the four fields one by one. -/
theorem and_encodeId (id : Word32) (a : Byte) (t : BitVec 3) (f : Byte) (c : Command) :
    id &&& encodeId a t f c =
      encodeId (idToAddress id &&& a) (idTransferType id &&& t) (idFromAddress id &&& f) (idCommand id &&& c) := by
  have hlt : (id &&& encodeId a t f c).toNat < 2 ^ 29 := by
    rw [BitVec.toNat_and]; exact Nat.lt_of_le_of_lt Nat.and_le_right (encodeId_lt a t f c)
  have ha : idToAddress (id &&& encodeId a t f c) = idToAddress id &&& a := by
    rw [idToAddress, BitVec.extractLsb'_and]; exact congrArg _ (idToAddress_encodeId a t f c)
  have ht : idTransferType (id &&& encodeId a t f c) = idTransferType id &&& t := by
    rw [idTransferType, BitVec.extractLsb'_and]; exact congrArg _ (idTransferType_encodeId a t f c)
  have hf : idFromAddress (id &&& encodeId a t f c) = idFromAddress id &&& f := by
    rw [idFromAddress, BitVec.extractLsb'_and]; exact congrArg _ (idFromAddress_encodeId a t f c)
  have hc : idCommand (id &&& encodeId a t f c) = idCommand id &&& c := by
    rw [idCommand, BitVec.extractLsb'_and]; exact congrArg _ (idCommand_encodeId a t f c)
  rw [← encodeId_fields hlt, ha, ht, hf, hc]

theorem cmd_and_ttMask (c : Command) : c &&& 0x300 = ttCmd (ttFt c) 0 := by
  ext k hk
  interval_cases k <;> simp [ttCmd, ttFt]

theorem cmd_and_blkMask (c : Command) : c &&& 0x380 = blkCmd (blkFt c) false 0 := by
  ext k hk
  interval_cases k <;> simp [blkCmd, blkFt]

section
variable {id : Word32} {t : TransferType} (ht : TransferType.ofBits (idTransferType id) = t)
include ht

theorem and_typeMask : id &&& 0x001C0000 = encodeId 0 t.bits 0 0 := by
  rw [← eq_bits_iff.2 ht]
  exact (and_encodeId id 0#8 (BitVec.allOnes 3) 0#8 0#10).trans (by simp only [BitVec.and_zero, BitVec.and_allOnes]; rfl)

theorem and_broadcastMask {a : Byte} (ha : idToAddress id = a) : id &&& 0x1FFC0000 = encodeId a t.bits 0 0 := by
  rw [← eq_bits_iff.2 ht, ← ha]
  exact (and_encodeId id (BitVec.allOnes 8) (BitVec.allOnes 3) 0#8 0#10).trans
    (by simp only [BitVec.and_zero, BitVec.and_allOnes]; rfl)

theorem and_ttMask {ft : TtFrameType} (hft : TtFrameType.ofBits (ttFt (idCommand id)) = ft) :
    id &&& 0x001C0300 = encodeId 0 t.bits 0 (ttCmd ft.bits 0) := by
  rw [← eq_bits_iff.2 ht, ← hft, TtFrameType.bits_ofBits]
  exact (and_encodeId id 0#8 (BitVec.allOnes 3) 0#8 0x300).trans
    (by simp only [BitVec.and_zero, BitVec.and_allOnes, cmd_and_ttMask]; rfl)

theorem and_blkMask {v : BitVec 3} (hv : blkFt (idCommand id) = v) :
    id &&& 0x001C0380 = encodeId 0 t.bits 0 (blkCmd v false 0) := by
  rw [← eq_bits_iff.2 ht, ← hv]
  exact (and_encodeId id 0#8 (BitVec.allOnes 3) 0#8 0x380).trans
    (by simp only [BitVec.and_zero, BitVec.and_allOnes, cmd_and_blkMask]; rfl)
end

/-! ### What a decoded frame says of its kind: R120, R121 -/

/-- The decoder's promise for a kind `i` read from frame `c` at port `p`: it has that port, a data field that fits if the
frame's does, and the row of the table that the identifier matches. -/
structure FollowsRow (p : Port) (c : CanFrame) (i : Instr) : Prop where
  port : i.port? = some p
  fits : i.wellFormed = c.wellFormed
  row : ∃ mask value, pattern i = some (mask, value) ∧ c.id &&& mask = value

section
variable {p : Port} {c : CanFrame}

theorem followsRow_decodeTc (ht : TransferType.ofBits (frameFields c).transferType = .telecommand) :
    FollowsRow p c (decodeTc p (frameFields c)) := by
  unfold decodeTc
  generalize hft : TtFrameType.ofBits (ttFt (frameFields c).command) = ft
  cases ft <;> exact ⟨rfl, rfl, _, _, rfl, and_ttMask ht hft⟩

theorem followsRow_decodeTm (ht : TransferType.ofBits (frameFields c).transferType = .telemetry) :
    FollowsRow p c (decodeTm p (frameFields c)) := by
  unfold decodeTm
  generalize hft : TtFrameType.ofBits (ttFt (frameFields c).command) = ft
  cases ft <;> exact ⟨rfl, rfl, _, _, rfl, and_ttMask ht hft⟩

theorem followsRow_decodeSb (ht : TransferType.ofBits (frameFields c).transferType = .setBlock) :
    FollowsRow p c (decodeSb p (frameFields c)) := by
  unfold decodeSb
  have hv := SbFrameType.bits_ofBits (blkFt (frameFields c).command)
  cases hft : SbFrameType.ofBits (blkFt (frameFields c).command) <;> rw [hft] at hv <;>
    exact ⟨rfl, rfl, _, _, rfl, and_blkMask ht hv.symm⟩

theorem followsRow_decodeGb (ht : TransferType.ofBits (frameFields c).transferType = .getBlock) :
    FollowsRow p c (decodeGb p (frameFields c)) := by
  unfold decodeGb
  have hv := GbFrameType.bits_ofBits (blkFt (frameFields c).command)
  cases hft : GbFrameType.ofBits (blkFt (frameFields c).command) <;> rw [hft] at hv <;>
    exact ⟨rfl, rfl, _, _, rfl, and_blkMask ht hv.symm⟩

theorem followsRow_of_decodeKind {i : Instr} (h : decodeKind p (frameFields c) = .ok i) : FollowsRow p c i := by
  unfold decodeKind at h
  generalize ht : TransferType.ofBits (frameFields c).transferType = t at h
  cases t with
  | timeSync =>
    dsimp only at h
    split at h
    · cases h; exact ⟨rfl, rfl, _, _, rfl, and_broadcastMask ht (a := 0x00) ‹_›⟩
    · cases h
  | unsolicited =>
    dsimp only at h
    split at h
    · cases h; exact ⟨rfl, rfl, _, _, rfl, and_broadcastMask ht (a := 0x01) ‹_›⟩
    · cases h
      have ha : ((frameFields c).toAddress != 0x01) = true := bne_iff_ne.2 ‹_›
      exact ⟨rfl, by rw [Instr.wellFormed, ha, Bool.and_true]; rfl, _, _, rfl, and_typeMask ht⟩
  | telecommand => cases h; exact followsRow_decodeTc ht
  | telemetry => cases h; exact followsRow_decodeTm ht
  | setBlock => cases h; exact followsRow_decodeSb ht
  | getBlock => cases h; exact followsRow_decodeGb ht
  | reserved6 | reserved7 => cases h; exact ⟨rfl, rfl, _, _, rfl, and_typeMask ht⟩

/-! ### Which frames decode: R120, R121 (c), R134, R136 -/

theorem decode_extended (hx : c.extid = true) (hr : c.rtr = false) : decode p c = decodeKind p (frameFields c) := by
  simp [decode, hx, hr]

theorem decodeKind_timeSync {f : LogicalFrame} (h : TransferType.ofBits f.transferType = .timeSync) : decodeKind p f =
    if f.toAddress = 0x00 then .ok (.timesync p f.fromAddress f.data) else .error .noFrameKind := by
  simp only [decodeKind, h]

/-- Of the logical frames, only a TIME_SYNC frame to another address than 0x00 has no kind. -/
theorem decodeKind_total (p : Port) (f : LogicalFrame) : (∃ i, decodeKind p f = .ok i) ∨
    decodeKind p f = .error .noFrameKind ∧ TransferType.ofBits f.transferType = .timeSync ∧ f.toAddress ≠ 0x00 := by
  cases ht : TransferType.ofBits f.transferType with
  | timeSync =>
    rw [decodeKind_timeSync ht]
    by_cases ha : f.toAddress = 0x00
    · exact .inl ⟨_, if_pos ha⟩
    · exact .inr ⟨if_neg ha, rfl, ha⟩
  | unsolicited =>
    left; simp only [decodeKind, ht]; split <;> exact ⟨_, rfl⟩
  | telecommand | telemetry | setBlock | getBlock | reserved6 | reserved7 => left; simp only [decodeKind, ht]; exact ⟨_, rfl⟩
end

/-- Settles O4: `FollowsRow` of each type's decoder, and the one type whose decoder can refuse. -/
theorem decodeFollowsTheTable : Obligations.DecodeFollowsTheTable := by
  refine ⟨fun p c i h => ?_, fun p c hx hr => ?_⟩
  · obtain ⟨hx, hr, hkind⟩ := decode_ok h
    obtain ⟨hport, hfits, hrow⟩ := followsRow_of_decodeKind hkind
    exact ⟨hx, hr, hport, hfits.trans, hrow⟩
  · rw [decode_extended hx hr]
    refine (decodeKind_total p (frameFields c)).imp_right fun ⟨herr, ht, ha⟩ => ⟨herr, ?_, ?_⟩
    · rw [← idTransferType_toNat]
      exact congrArg BitVec.toNat (eq_bits_iff.2 ht)
    · rw [← idToAddress_toNat]
      exact fun h => ha (BitVec.eq_of_toNat_eq h)

/-! ### Bits 31:29: R137 -/

/-- The logical frame of a CAN frame depends on its identifier's low 29 bits and its data only. -/
theorem frameFields_congr {c c' : CanFrame} (hid : c'.id.toNat % 2 ^ 29 = c.id.toNat % 2 ^ 29) (hd : c'.data = c.data) :
    frameFields c' = frameFields c := by
  have ha : idToAddress c'.id = idToAddress c.id := by
    apply BitVec.eq_of_toNat_eq; simp only [idToAddress_toNat]; omega
  have ht : idTransferType c'.id = idTransferType c.id := by
    apply BitVec.eq_of_toNat_eq; simp only [idTransferType_toNat]; omega
  have hf : idFromAddress c'.id = idFromAddress c.id := by
    apply BitVec.eq_of_toNat_eq; simp only [idFromAddress_toNat]; omega
  have hc : idCommand c'.id = idCommand c.id := by
    apply BitVec.eq_of_toNat_eq; simp only [idCommand_toNat]; omega
  simp only [frameFields, ha, ht, hf, hc, hd]

/-- Settles O5: the encoder's fields end at bit 28, and so do the fields that the decoder reads. -/
theorem highIdentifierBits : Obligations.HighIdentifierBits :=
  ⟨fun _ => encodeId_lt _ _ _ _, fun _ _ _ hid hx hr hd => by simp only [decode, frameFields_congr hid hd, hx, hr]⟩

/-! ### The encoder and back: R118, R133 -/

theorem decode_encodeFrame (p : Port) (f : LogicalFrame) : decode p (encodeFrame f) = decodeKind p f := by
  rw [decode_extended rfl rfl, frameFields_encodeFrame]

/-- What has a row of the table has a frame, and nothing else has. -/
theorem kindFrame_isSome (i : Instr) : (kindFrame i).isSome = (pattern i).isSome := by cases i <;> rfl

/-- The frame built for a kind is of the kind. An UNSOL to 0x01 would be a KEEPALIVE, which `wellFormed` excludes. -/
theorem decodeKind_kindFrame {i : Instr} {p : Port} {f : LogicalFrame} (hf : kindFrame i = some f) (hp : i.port? = some p)
    (hw : i.wellFormed = true) : decodeKind p f = .ok i := by
  cases i with
  | tcRequest | tcAck | tcNack | tcReservedFt3 =>
    obtain rfl := Option.some.inj hf; obtain rfl := Option.some.inj hp
    simp [decodeKind, decodeTc, tcFrame]
  | tmRequest | tmAck | tmNack | tmReservedFt3 =>
    obtain rfl := Option.some.inj hf; obtain rfl := Option.some.inj hp
    simp [decodeKind, decodeTm, tmFrame]
  | sbRequest | sbTransfer | sbAck | sbAbort | sbNack | sbReservedFt5 | sbStatus | sbReport =>
    obtain rfl := Option.some.inj hf; obtain rfl := Option.some.inj hp
    simp [decodeKind, decodeSb, sbFrame]
  | gbRequest | gbReservedFt1 | gbAck | gbAbort | gbNack | gbReservedFt5 | gbStart | gbTransfer =>
    obtain rfl := Option.some.inj hf; obtain rfl := Option.some.inj hp
    simp [decodeKind, decodeGb, gbFrame]
  | unsol q a =>
    obtain rfl := Option.some.inj hf; obtain rfl := Option.some.inj hp
    have ha : a ≠ 0x01 := bne_iff_ne.1 (Bool.and_eq_true_iff.1 hw).2
    simpa [decodeKind, unsolFrame] using ha
  | keepalive | timesync | type6Reserved | type7Reserved =>
    obtain rfl := Option.some.inj hf; obtain rfl := Option.some.inj hp
    simp [decodeKind, unsolFrame, timesyncFrame, reservedFrame]
  | _ => cases hf

/-- Settles O3: the kind's frame decodes to the kind by its fields, and a decoded kind's data fit just when its frame's do. -/
theorem decodeEncodeAgree : Obligations.DecodeEncodeAgree := by
  intro i p hw hrow hp
  obtain ⟨f, hf⟩ := Option.isSome_iff_exists.1 ((kindFrame_isSome i).trans hrow)
  have hkind := decodeKind_kindFrame hf hp hw
  obtain ⟨hx, hr, hlt⟩ := Laws.encodeFrame_extended f
  have hfits : (encodeFrame f).wellFormed = i.wellFormed :=
    (followsRow_of_decodeKind (p := p) (by rwa [frameFields_encodeFrame])).fits.symm
  exact ⟨encodeFrame f, by rw [encode, hf]; rfl, hx, hr, hlt, of_decide_eq_true (hfits.trans hw),
    (decode_encodeFrame p f).trans hkind⟩

end Sys2Proof.Machine
end

section
/-! PROOFS. The notifications of a driver against the frame kinds (R291, R297 to R299): what is ignored on receive, and that a
confirmation of a kind's frame is routed to what the kind does at that port. -/

namespace Sys2Proof.Machine

/-! ### A received frame that runs nothing: R130, R136, R295 -/

section
variable {b : Bus} {c : CanFrame} (s : State)

/-- An 11-bit or remote frame is dropped before a field is decoded. -/
theorem frameReceived_malformed (h : ¬(c.extid = true ∧ c.rtr = false)) : exec (.frameReceived b c) s = .next s := by
  have hdrop : decodeFrame c = none := if_pos (by simpa [or_iff_not_imp_left] using h)
  simp only [exec, execFrameReceived, hdrop, ite_self]

/-- A frame that decodes to no kind is a TIME_SYNC frame to another address than 0x00, and no branch takes it. -/
theorem receiveFrame_of_decodeKind_error {p : Port} {f : LogicalFrame} {e : DecodeError} (h : decodeKind p f = .error e) :
    receiveFrame b f s = .next s := by
  obtain ⟨i, hok⟩ | ⟨-, ht, ha⟩ := decodeKind_total p f
  · cases hok.symm.trans h
  have hkeep : ¬(f.toAddress = Config.keepAliveAddress ∧ f.transferType = TransferType.unsolicited.bits) :=
    fun hk => by cases ht.symm.trans (eq_bits_iff.1 hk.2)
  have hsync : ¬(f.toAddress = Config.timeSyncAddress ∧ f.transferType = TransferType.timeSync.bits) := fun hk => ha hk.1
  have hlocal : s.dispatchByType f = .next s := by simp only [State.dispatchByType, ht]
  simp only [receiveFrame, State.classifyActive, State.classifyInactive, if_neg hkeep, if_neg hsync, hlocal, ite_self]

theorem exec_frameReceived_of_decode_error {p : Port} {e : DecodeError} (h : decode p c = .error e) :
    exec (.frameReceived b c) s = .next s := by
  by_cases hc : c.extid = true ∧ c.rtr = false
  · rw [exec_frameReceived hc.1 hc.2]
    exact receiveFrame_of_decodeKind_error s ((decode_extended hc.1 hc.2).symm.trans h)
  · exact frameReceived_malformed s hc
end

/-- Settles O17: such a frame is dropped before its fields are read, or its type is reserved. -/
theorem malformedFramesAreIgnored : Obligations.MalformedFramesAreIgnored := by
  refine ⟨fun s b c h => ?_, fun _ => ⟨rfl, rfl⟩⟩
  by_cases hc : c.extid = true ∧ c.rtr = false
  · have hres : 6 ≤ (frameFields c).transferType.toNat := by simpa [hc, frameFields] using h
    rw [exec_frameReceived hc.1 hc.2, receiveFrame_reserved s hres]
  · exact frameReceived_malformed s hc

/-! ### The two sides of a frame kind -/

section
variable {p : Port} {frame : LogicalFrame} {received sent error : State → Result} {s : State}

theorem atPort_received (hn : p.notice = .received) : atPort p frame received sent error s = received s := by
  rw [atPort, hn]

/-- A confirmation does not ask what the kind does when it is received. -/
theorem atPort_confirmed (hn : p.notice ≠ .received) :
    atPort p frame received sent error = outgoingAt p frame sent error := by
  obtain ⟨b, notice⟩ := p
  cases notice with
  | received => exact absurd rfl hn
  | sent | sendError => rfl

/-- The confirmed frame of a kind that the engine never sends only leaves the driver (R53, R299). -/
theorem atPort_confirmed_next (hn : p.notice ≠ .received) (hd : s.delivers p.bus = true) :
    atPort p frame received .next .next s = .next (s.settle p.bus (encodeFrame frame)) := by
  have hleaves : confirm p.bus (encodeFrame frame) s .next = .next (s.settle p.bus (encodeFrame frame)) := by
    rw [confirm, if_pos hd, ite_self]
  obtain ⟨b, notice⟩ := p
  cases notice with
  | received => exact absurd rfl hn
  | sent | sendError => exact hleaves
end

/-- Settles O18: these kinds act on a confirmation only. -/
theorem responderFramesAreIgnored : Obligations.ResponderFramesAreIgnored := by
  intro s b t f ch n d
  simp only [exec_tcRequest, exec_tmRequest, exec_sbRequest, exec_sbTransfer, exec_sbStatus, exec_sbAbort, exec_gbRequest,
    exec_gbStart, exec_gbAbort, atPort_received, and_self]

/-- Settles O19: a reserved kind has no action at any port. -/
theorem reservedKindsAreIgnored : Obligations.ReservedKindsAreIgnored := by
  intro s p t f ch n d
  simp only [exec_tcReservedFt3, exec_tmReservedFt3, exec_sbReservedFt5, exec_gbReservedFt1, exec_gbReservedFt5,
    exec_type6Reserved, exec_type7Reserved]
  exact ⟨fun hn => by simp only [atPort_received hn, and_self],
    fun hn hd => by simp only [atPort_confirmed_next hn hd, and_self]⟩

/-! ### Confirmations: R297 to R299 -/

/-- A confirmed kind does what the dispatcher routes its frame to. -/
theorem exec_of_confirmed {i : Instr} {p : Port} {f : LogicalFrame} (hf : kindFrame i = some f) (hp : i.port? = some p)
    (hn : p.notice ≠ .received) : exec i = outgoingAt p f (·.routeSent f) (fun s => .next (s.routeError f)) := by
  cases i with
  | tcRequest | tcAck | tcNack | tcReservedFt3 =>
    obtain rfl := Option.some.inj hf; obtain rfl := Option.some.inj hp
    simp only [exec_tcRequest, exec_tcAck, exec_tcNack, exec_tcReservedFt3, responseAt, atPort_confirmed hn]
    simp [State.routeSent, State.routeError, tcFrame]
  | tmRequest | tmAck | tmNack | tmReservedFt3 =>
    obtain rfl := Option.some.inj hf; obtain rfl := Option.some.inj hp
    simp only [exec_tmRequest, exec_tmAck, exec_tmNack, exec_tmReservedFt3, responseAt, atPort_confirmed hn]
    simp [State.routeSent, State.routeError, tmFrame]
  | sbRequest | sbTransfer | sbAck | sbAbort | sbNack | sbReservedFt5 | sbStatus | sbReport =>
    obtain rfl := Option.some.inj hf; obtain rfl := Option.some.inj hp
    simp only [exec_sbRequest, exec_sbTransfer, exec_sbAck, exec_sbAbort, exec_sbNack, exec_sbReservedFt5, exec_sbStatus,
      exec_sbReport, responseAt, atPort_confirmed hn]
    simp [State.routeSent, State.routeError, sbFrame]
  | gbRequest | gbReservedFt1 | gbAck | gbAbort | gbNack | gbReservedFt5 | gbStart | gbTransfer =>
    obtain rfl := Option.some.inj hf; obtain rfl := Option.some.inj hp
    simp only [exec_gbRequest, exec_gbReservedFt1, exec_gbAck, exec_gbAbort, exec_gbNack, exec_gbReservedFt5, exec_gbStart,
      exec_gbTransfer, responseAt, atPort_confirmed hn]
    simp [State.routeSent, State.routeError, gbFrame]
  | unsol | keepalive | timesync | type6Reserved | type7Reserved =>
    obtain rfl := Option.some.inj hf; obtain rfl := Option.some.inj hp
    simp only [exec_unsol, exec_keepalive, exec_timesync, exec_type6Reserved, exec_type7Reserved, atPort_confirmed hn]
    simp [State.routeSent, State.routeError, unsolFrame, timesyncFrame, reservedFrame, Config.keepAliveAddress]
  | _ => cases hf

/-- Settles O13: on receive by the kind that decodes, on a confirmation by the routing of the kind's frame. -/
theorem notificationsRunTheirFrameKind : Obligations.NotificationsRunTheirFrameKind := by
  refine ⟨fun _ _ _ s h => exec_frameReceived_of_decode s h, fun _ _ _ s h => exec_frameReceived_of_decode_error s h,
    fun b c i s _ hp hc => ?_, fun b r c i s _ hp hc => ?_⟩
  · obtain ⟨f, hf, rfl⟩ := Option.map_eq_some_iff.1 hc
    rw [exec_frameSent, frameFields_encodeFrame, exec_of_confirmed hf hp (by simp)]
    rfl
  · obtain ⟨f, hf, rfl⟩ := Option.map_eq_some_iff.1 hc
    rw [exec_sendError, frameFields_encodeFrame, exec_of_confirmed hf hp (by simp)]
    rfl

end Sys2Proof.Machine
end

section
/-! PROOFS. The codec's round trips (R165, R242) and the bits of its fields (R111, R112, R160, R161, R191, R192). -/

namespace Sys2Proof.Machine

/-! ### A command field is built from its fields: R242 -/

theorem ttCmd_fields (cmd : Command) : ttCmd (ttFt cmd) (ttChannel cmd) = cmd := by
  have hlt := cmd.isLt
  apply BitVec.eq_of_toNat_eq
  rw [ttCmd_toNat, ttFt_toNat, ttChannel_toNat]; omega

theorem blkCmd_fields (cmd : Command) : blkCmd (blkFt cmd) (blkDone cmd) (blkSn cmd) = cmd := by
  have hlt := cmd.isLt
  apply BitVec.eq_of_toNat_eq
  rw [blkCmd_toNat, blkFt_toNat, blkDone_toNat, blkSn_toNat]; omega

theorem decodeId_encodeId (toAddr : Byte) (t : BitVec 3) (fromAddr : Byte) (cmd : Command) :
    decodeId (encodeId toAddr t fromAddr cmd) = (toAddr, t, fromAddr, cmd) := by
  simp only [decodeId, idToAddress_encodeId, idTransferType_encodeId, idFromAddress_encodeId, idCommand_encodeId]

/-- Settles O1: the accessors read back the fields a builder places, and the fields leave no bit of a word below `2 ^ 29`, or
of a command, unread. -/
theorem codecRoundTrips : Obligations.CodecRoundTrips :=
  ⟨decodeId_encodeId, fun f _ => decodeFrame_encodeFrame f, fun _ => encodeId_fields,
    fun ft ch => ⟨ttFt_ttCmd ft ch, ttChannel_ttCmd ft ch⟩,
    fun ft done sn => ⟨blkFt_blkCmd ft done sn, blkDone_blkCmd ft done sn, blkSn_blkCmd ft done sn⟩,
    ttChannel_unsCmd, ttCmd_fields, blkCmd_fields⟩

/-- Settles O2: each builder is the sum of its shifted fields, and each accessor a quotient's remainder. -/
theorem fieldsLieWhereTheFormatsPutThem : Obligations.FieldsLieWhereTheFormatsPutThem :=
  ⟨encodeId_toNat,
    fun id => ⟨idToAddress_toNat id, idTransferType_toNat id, idFromAddress_toNat id, idCommand_toNat id⟩,
    ttCmd_toNat, blkCmd_toNat⟩

end Sys2Proof.Machine
end

section
/-! PROOFS. The operand forms and what the engine builds of them: the start address (R240), the identifier and data of each
built frame (R200 to R234), and the example words of those rules. -/

namespace Sys2Proof.Machine

/-! ### The trimmed start address: R240 -/

/-- What `trimZeros` drops is zero bytes: put back, they complete the list. -/
theorem trimZeros_append_zeros (l : List Byte) :
    trimZeros l ++ List.replicate (l.length - (trimZeros l).length) 0 = l := by
  obtain ⟨hprefix, hzero, -⟩ := trimZeros_spec l
  have hdrop : l.drop (trimZeros l).length = List.replicate (l.length - (trimZeros l).length) 0 := by
    refine List.eq_replicate_iff.2 ⟨List.length_drop, fun b hb => ?_⟩
    obtain ⟨k, hk, rfl⟩ := List.getElem_of_mem hb
    rw [List.getElem_drop, ← List.getD_eq_getElem l 0]
    exact hzero _ (Nat.le_add_right _ k)
  rw [← hdrop]
  exact List.prefix_iff_eq_append.1 hprefix

section
variable {v : Word64}

theorem encodeStart_of_trim_nil (h : trimZeros (leBytes8 v) = []) : encodeStart v = [0x00] := by
  rw [encodeStart, h]

theorem encodeStart_of_trim_ne_nil (h : trimZeros (leBytes8 v) ≠ []) : encodeStart v = trimZeros (leBytes8 v) := by
  unfold encodeStart
  split
  · exact absurd ‹_› h
  · rfl
end

/-- The start address filled up with zero bytes is the whole image. -/
theorem encodeStart_append_zeros (v : Word64) :
    encodeStart v ++ List.replicate (8 - (encodeStart v).length) 0 = leBytes8 v := by
  have himage := trimZeros_append_zeros (leBytes8 v)
  rw [leBytes8_length] at himage
  by_cases h : trimZeros (leBytes8 v) = []
  · rw [encodeStart_of_trim_nil h, ← himage, h]; rfl
  · rwa [encodeStart_of_trim_ne_nil h]

/-- Read with 0 past its end, the start address has the bytes of the image. -/
theorem encodeStart_getD (v : Word64) (k : Nat) : (encodeStart v).getD k 0 = (leBytes8 v).getD k 0 := by
  rw [← encodeStart_append_zeros v]
  by_cases hk : k < (encodeStart v).length
  · rw [List.getD_append _ _ _ _ hk]
  · rw [List.getD_append_right _ _ _ _ (Nat.le_of_not_lt hk), List.getD_eq_default _ _ (Nat.le_of_not_lt hk),
      List.getD_eq_getElem?_getD, List.getElem?_getD_replicate_default_eq]

/-- Only a start address of one byte can end in a zero byte. -/
theorem encodeStart_last_ne_zero {v : Word64} (h : 1 < (encodeStart v).length) :
    (encodeStart v).getD ((encodeStart v).length - 1) 0 ≠ 0 := by
  have hne : trimZeros (leBytes8 v) ≠ [] := fun hnil => by
    rw [encodeStart_of_trim_nil hnil] at h
    exact absurd h (by decide)
  have hlast := (trimZeros_spec (leBytes8 v)).2.2 hne
  rwa [List.getLast_eq_getElem, ← List.getD_eq_getElem _ 0, ← encodeStart_of_trim_ne_nil hne] at hlast

theorem leValue_encodeStart (v : Word64) : leValue (encodeStart v) = v := by
  rw [← leValue_append_zeros (encodeStart v) _ fun _ => List.eq_of_mem_replicate, encodeStart_append_zeros, leValue_leBytes8]

/-- Settles O8: the bytes and the value are those of the image, from which only zero bytes are missing. -/
theorem startAddressIsTrimmed : Obligations.StartAddressIsTrimmed := by
  intro v
  have hlen := encodeStart_length v
  refine ⟨hlen, fun k hk => ?_, encodeStart_last_ne_zero, fun k hk hk8 => ?_, leValue_encodeStart v⟩
  · rw [encodeStart_getD, leBytes8_getD v k (by omega)]
  · rw [← leBytes8_getD v k hk8, ← encodeStart_getD, List.getD_eq_default _ _ hk]; rfl

/-! ### The command field of each built frame: R112, R118, R190 to R192 -/

theorem ttCmd_request_toNat (ch : Byte) : (ttCmd TtFrameType.request.bits ch).toNat = ch.toNat := by
  rw [ttCmd_toNat]; exact Nat.zero_add _

theorem unsCmd_toNat (ch : Byte) : (unsCmd ch).toNat = ch.toNat := BitVec.toNat_setWidth_of_le (by decide)

/-- A REQUEST's number is the frame count minus one, as 1 to 64 frames leave a number that fits. -/
theorem requestNum_toNat {blocks : Byte} (h1 : 1 ≤ blocks.toNat) (h64 : blocks.toNat ≤ 64) :
    (requestNum blocks).toNat = blocks.toNat - 1 := by
  have hle : 1 ≤ blocks := BitVec.le_def.2 h1
  rw [requestNum, BitVec.toNat_setWidth, BitVec.toNat_sub_of_le hle]
  exact Nat.mod_eq_of_lt (Nat.lt_of_lt_of_le (Nat.sub_lt h1 Nat.one_pos) h64)

/-- The command of a block REQUEST, whose frame type is 0 for both directions. -/
theorem blkCmd_requestNum_toNat {blocks : Byte} (h1 : 1 ≤ blocks.toNat) (h64 : blocks.toNat ≤ 64) :
    (blkCmd 0 false (requestNum blocks)).toNat = blocks.toNat - 1 := by
  rw [blkCmd_toNat, requestNum_toNat h1 h64]; exact Nat.zero_add _

theorem blkCmd_transfer_toNat {k : Nat} (h : k < 64) :
    (blkCmd SbFrameType.transfer.bits false (BitVec.ofNat 6 k)).toNat = 0x080 + k := by
  rw [blkCmd_toNat, BitVec.toNat_ofNat, Nat.mod_eq_of_lt h]; rfl

/-! ### The frames the engine builds: R200 to R234 -/

/-- A built frame by the number of its command: the identifier is the sum of the shifted fields (R111, R162). -/
theorem encodeFrame_of_command {f : LogicalFrame} {cmd : Nat} (h : f.command.toNat = cmd) :
    encodeFrame f =
      { id := BitVec.ofNat 32
          (f.toAddress.toNat * 2 ^ 21 + f.transferType.toNat * 2 ^ 18 + f.fromAddress.toNat * 2 ^ 10 + cmd),
        extid := true, rtr := false, data := f.data } := by
  rw [encodeFrame, ← h, ← encodeId_toNat, BitVec.ofNat_toNat, BitVec.setWidth_eq]

/-- Settles O7: each frame by the number of its command, and a TRANSFER inside the block is read without a fault. -/
theorem framesTheEngineBuilds : Obligations.FramesTheEngineBuilds := by
  intro L tc tm sb gb time hs1 hs64 hg1 hg64 builds
  exact ⟨encodeFrame_of_command (ttCmd_request_toNat _), encodeFrame_of_command (ttCmd_request_toNat _),
    encodeFrame_of_command (blkCmd_requestNum_toNat hs1 hs64), encodeFrame_of_command rfl, encodeFrame_of_command rfl,
    encodeFrame_of_command (blkCmd_requestNum_toNat hg1 hg64), encodeFrame_of_command rfl, encodeFrame_of_command rfl,
    fun _ _ _ => ⟨_, sbTransferFrame_ok (by omega), encodeFrame_of_command (blkCmd_transfer_toNat (by omega))⟩,
    encodeFrame_of_command rfl, leBytes8_length time, leBytes8_getD time,
    fun _ ch _ => encodeFrame_of_command (unsCmd_toNat ch)⟩

/-! ### The example words -/

/-- The word that a kind encodes to decodes to the kind. -/
theorem decode_of_encode {i : Instr} {p : Port} {c : CanFrame} (hc : encode i = some c) (hp : i.port? = some p)
    (hw : i.wellFormed = true) : decode p c = .ok i := by
  obtain ⟨f, hf, rfl⟩ := Option.map_eq_some_iff.1 hc
  rw [decode_encodeFrame, decodeKind_kindFrame hf hp hw]

/-- Settles O6: each example is the word that its kind encodes to. -/
theorem exampleWordsDecode : Obligations.ExampleWordsDecode :=
  ⟨decode_of_encode rfl rfl rfl, decode_of_encode rfl rfl rfl, decode_of_encode rfl rfl rfl, decode_of_encode rfl rfl rfl,
    decode_of_encode rfl rfl rfl, decode_of_encode rfl rfl rfl, decode_of_encode rfl rfl rfl, decode_of_encode rfl rfl rfl⟩

end Sys2Proof.Machine
end

section
/-! PROOFS. The bitmap utilities (R260 to R271): what each answers inside its precondition, bit by bit, and from that the laws
of R270 and R271. -/

namespace Sys2Proof.Machine

section
variable {b : List Byte} {k m n : Nat}

/-! ### One bit: R262 to R264 -/

/-- The bit as R264 reads it: the byte shifted down, its lowest bit kept. -/
theorem bitAt_eq_shift (b : List Byte) (i : Nat) :
    bitAt b i = decide (((b.getD (i / 8) 0) >>> (i % 8)) &&& 1 = 1) := by
  have hbit : ((b.getD (i / 8) 0) >>> (i % 8)).getLsbD 0 = bitAt b i := by
    rw [BitVec.getLsbD_ushiftRight, Nat.add_zero, bitAt]
  have hlow : ((b.getD (i / 8) 0) >>> (i % 8)) &&& 1 = BitVec.setWidth 8 (BitVec.ofBool (bitAt b i)) :=
    hbit ▸ BitVec.and_one_eq_setWidth_ofBool_getLsbD
  rw [hlow]
  cases bitAt b i <;> rfl

theorem bitAt_withBitSet_self (hk : k < 8 * b.length) : bitAt (withBitSet b k) k = true := by
  simp [bitAt_withBitSet, hk]

theorem bitAt_withBitClear_self : bitAt (withBitClear b k) k = false := by
  simp [bitAt_withBitClear]

theorem bitAt_withBitSet_of_ne (h : m ≠ k) : bitAt (withBitSet b k) m = bitAt b m := by
  simp [bitAt_withBitSet, h]

theorem bitAt_withBitClear_of_ne (h : m ≠ k) : bitAt (withBitClear b k) m = bitAt b m := by
  simp [bitAt_withBitClear, h]

theorem isBitSet_eq_of_bitAt_eq {b' : List Byte} (hlen : b'.length = b.length) (hbit : bitAt b' m = bitAt b m) :
    isBitSet b' m = isBitSet b m := by
  rw [isBitSet, isBitSet, hlen, hbit]

/-! ### Writing many bits: R267, R270 (b) -/

/-- The bits of `set_first_n`: the first `n` are set, every other bit stays. -/
theorem bitAt_setFirst (hn : n ≤ 8 * b.length) (m : Nat) :
    bitAt ((List.range n).foldl withBitSet b) m = (decide (m < n) || bitAt b m) := by
  rw [bitAt_foldl_withBitSet, Bool.or_comm]
  by_cases hm : m < n
  · have : m < 8 * b.length := Nat.lt_of_lt_of_le hm hn
    simp [hm, this]
  · simp [hm]

theorem foldl_withBitClear_length (l : List Nat) (b : List Byte) : (l.foldl withBitClear b).length = b.length :=
  List.foldlRecOn (motive := fun c => c.length = b.length) l withBitClear rfl fun c hc k _ =>
    (withBitClear_length c k).trans hc

theorem bitAt_foldl_withBitClear (l : List Nat) (b : List Byte) (m : Nat) :
    bitAt (l.foldl withBitClear b) m = (bitAt b m && !decide (m ∈ l)) := by
  induction l generalizing b with
  | nil => simp
  | cons x xs ih =>
    rw [List.foldl_cons, ih, bitAt_withBitClear, Bool.and_assoc]
    simp

/-- Setting bits below `n` keeps a valid bitmap valid, as it leaves the padding alone. -/
theorem isValid_foldl_withBitSet {l : List Nat} (h : isValid b n = true) (hl : ∀ k ∈ l, k < n) :
    isValid (l.foldl withBitSet b) n = true :=
  List.foldlRecOn (motive := fun c => isValid c n = true) l withBitSet h fun _ hc k hk => isValid_withBitSet hc (hl k hk)

/-! ### The answers of the folds: R265, R266, R268, R269 -/

theorem allSet_true_iff (hn : n ≤ 8 * b.length) : allSet b n = .ok true ↔ FullBitmap b n := by
  rw [allSet_ok hn, Except.ok.injEq, decide_eq_true_iff]

theorem allCleared_true_iff (hn : n ≤ 8 * b.length) : allCleared b n = .ok true ↔ ∀ k < n, bitAt b k = false := by
  rw [allCleared_ok hn, Except.ok.injEq, decide_eq_true_iff]

/-- No bit is both set and clear, so both folds hold of no bit at all only. -/
theorem allSet_and_allCleared_iff (hn : n ≤ 8 * b.length) :
    allSet b n = .ok true ∧ allCleared b n = .ok true ↔ n = 0 := by
  rw [allSet_true_iff hn, allCleared_true_iff hn]
  constructor
  · rintro ⟨hset, hclear⟩
    refine Nat.eq_zero_of_not_pos fun hpos => ?_
    exact Bool.false_ne_true ((hclear 0 hpos).symm.trans (hset 0 hpos))
  · rintro rfl
    exact ⟨fun _ h => absurd h (Nat.not_lt_zero _), fun _ h => absurd h (Nat.not_lt_zero _)⟩

theorem firstClear_some_iff (hn : n ≤ 8 * b.length) : firstClear b n = .ok (some k) ↔ LowestClear b n k := by
  refine ⟨fun h => ?_, fun ⟨hk, hb, hlow⟩ => firstClear_some hn hk hb hlow⟩
  rcases firstClear_cases hn with ⟨hnone, -⟩ | ⟨j, hj, hsome, hclear, hlow⟩
  · cases hnone.symm.trans h
  · cases hsome.symm.trans h
    exact ⟨hj, hclear, hlow⟩

theorem firstClear_none_iff (hn : n ≤ 8 * b.length) : firstClear b n = .ok none ↔ FullBitmap b n := by
  refine ⟨fun h => ?_, firstClear_none hn⟩
  rcases firstClear_cases hn with ⟨-, hfull⟩ | ⟨j, -, hsome, -⟩
  · exact hfull
  · cases hsome.symm.trans h

/-- R268 in the words of `is_bit_set`; `isValid_iff` speaks of the indices past the end too, which read as clear. -/
theorem isValid_iff_isBitSet :
    isValid b n = true ↔ b.length = bmSize n ∧ ∀ k, n ≤ k → k < 8 * b.length → isBitSet b k = .ok false := by
  refine isValid_iff.trans (and_congr_right fun _ => forall₂_congr fun k _ => ?_)
  rcases lt_or_ge k (8 * b.length) with hk | hk
  · simp [isBitSet_ok hk, hk]
  · simp [bitAt_ge hk, Nat.not_lt.2 hk]
end

/-! ### The laws -/

/-- Settles O9: after the fold that sets or clears the first `n` indices, each of those bits reads as it was written. -/
theorem bitmapLawsOfTheSource : Obligations.BitmapLawsOfTheSource := by
  intro n b _ hlen
  have hn : n ≤ 8 * b.length := by omega
  have hset : n ≤ 8 * ((List.range n).foldl withBitSet b).length := by rwa [foldl_withBitSet_length]
  have hclear : n ≤ 8 * ((List.range n).foldl withBitClear b).length := by rwa [foldl_withBitClear_length]
  refine ⟨⟨_, setFirstN_ok hn, (allSet_true_iff hset).2 fun k hk => ?_⟩, (allCleared_true_iff hclear).2 fun k hk => ?_,
    fun k hk => clearBit_ok (Nat.lt_of_lt_of_le hk hn), fun i hi => ?_⟩
  · simp [bitAt_setFirst hn, hk]
  · simp [bitAt_foldl_withBitClear, hk]
  · rw [isBitSet_ok hi, bitAt_eq_shift]

/-- Settles O10: each utility by its lemma inside the range, and the laws of R271 from what the utilities do to one bit. -/
theorem bitmapLawsThatFollow : Obligations.BitmapLawsThatFollow := by
  refine ⟨fun b n => isValid_iff_isBitSet, fun b k hk => ⟨isBitSet_ok hk, setBit_ok hk, clearBit_ok hk⟩,
    fun b n hn => ⟨allSet_ok hn, allCleared_ok hn, fun k => firstClear_some_iff hn, _, setFirstN_ok hn,
      fun m _ => bitAt_setFirst hn m⟩,
    fun b k m n hk _ hn => ⟨_, _, _, setBit_ok hk, clearBit_ok hk, setFirstN_ok hn, ?set, ?clear, fun hne => ?other,
      withBitSet_length b k, withBitClear_length b k, foldl_withBitSet_length _ b, fun hv => ?valid,
      (firstClear_none_iff hn).trans (allSet_true_iff hn).symm, allSet_and_allCleared_iff hn⟩⟩
  case set => rw [isBitSet_ok (by rwa [withBitSet_length]), bitAt_withBitSet_self hk]
  case clear => rw [isBitSet_ok (by rwa [withBitClear_length]), bitAt_withBitClear_self]
  case other =>
    exact ⟨isBitSet_eq_of_bitAt_eq (withBitSet_length b k) (bitAt_withBitSet_of_ne hne),
      isBitSet_eq_of_bitAt_eq (withBitClear_length b k) (bitAt_withBitClear_of_ne hne)⟩
  case valid =>
    exact ⟨fun hkn => ⟨isValid_withBitSet hv hkn, isValid_withBitClear hv⟩,
      isValid_foldl_withBitSet hv fun _ => List.mem_range.1⟩

end Sys2Proof.Machine
end

section
/-! PROOFS. The bus dispatcher: what `send_frame` and a confirmation do to the one driver they name (R53, R290, R297), which
received frames have an effect on either bus (R292 to R296), and the bus switch (R300).

On receive the dispatcher drops the reserved types before it classifies. Neither classifier would take such a frame, so a
received frame does what the classifier of its bus does (`receiveFrame_active`, `receiveFrame_inactive`). -/

namespace Sys2Proof.Machine

/-! ### Writing one driver: R36, R53 -/

theorem otherBus_otherBus (b : Bus) : otherBus (otherBus b) = b := by cases b <;> rfl

section
variable (s : State) (b : Bus) (l : Link)

theorem setLink_changes_links :
    s.setLink b l = { s with nominal := (s.setLink b l).nominal, redundant := (s.setLink b l).redundant } := by
  cases b <;> rfl

@[simp] theorem link_setLink_self : (s.setLink b l).link b = l := by cases b <;> rfl

@[simp] theorem link_setLink_otherBus : (s.setLink b l).link (otherBus b) = s.link (otherBus b) := by cases b <;> rfl
end

/-! ### A driver that is offered a frame: R290, R310 -/

section
variable {l : Link} {b : Bus} {c : CanFrame}

theorem offer_accepted (ho : l.isOpen = true) (ha : l.nextAnswer b = true) :
    l.offer b c = { l.answered with inFlight := l.inFlight ++ [c] } := by rw [Link.offer, if_pos ho, if_pos ha]

theorem offer_refused (ho : l.isOpen = true) (ha : l.nextAnswer b = false) : l.offer b c = l.answered := by
  rw [Link.offer, if_pos ho, if_neg (by simp [ha])]

theorem offer_closed (ho : l.isOpen = false) : l.offer b c = l := if_neg (by simp [ho])

/-- An offer leaves a driver open or closed as it was, and puts the frame in flight exactly if it is taken. -/
theorem offer_state_inFlight : (l.offer b c).state = l.state ∧
    (l.offer b c).inFlight = l.inFlight ++ (if l.isOpen && l.nextAnswer b then [c] else []) := by
  cases ho : l.isOpen with
  | false => simp [offer_closed ho]
  | true =>
    cases ha : l.nextAnswer b with
    | false => simp [offer_refused ho ha, Link.answered]
    | true => simp [offer_accepted ho ha, Link.answered]

/-- An open driver gives the environment's next answer and uses it up, whichever it is. -/
theorem offer_answers {a : Bool} {rest : List Bool} (ho : l.isOpen = true) (hl : l.answers = a :: rest) :
    l.nextAnswer b = a ∧ (l.offer b c).answers = rest := by
  have hnext : l.nextAnswer b = a := by simp only [Link.nextAnswer, hl]
  refine ⟨hnext, ?_⟩
  cases a with
  | false => simp [offer_refused ho hnext, Link.answered, hl]
  | true => simp [offer_accepted ho hnext, Link.answered, hl]
end

theorem link_afterSend_active (s : State) (f : LogicalFrame) :
    (s.afterSend f).link s.activeBus = (s.link s.activeBus).offer s.activeBus (encodeFrame f) := link_setLink_self s _ _

/-- Settles O12: `afterSend` writes one driver, and `Link.offer` says what it writes there. -/
theorem sendFrameOffersToTheActiveDriver : Obligations.SendFrameOffersToTheActiveDriver := by
  intro s f
  rw [link_afterSend_active]
  refine ⟨setLink_changes_links s _ _, link_setLink_otherBus s _ _, offer_state_inFlight.1, offer_state_inFlight.2,
    fun ho => by rw [State.accepts, ho, Bool.false_and], fun a rest ho hl => ?_⟩
  obtain ⟨hnext, hrest⟩ := offer_answers (b := s.activeBus) (c := encodeFrame f) ho hl
  exact ⟨by rw [State.accepts, ho, hnext, Bool.true_and], hrest⟩

/-! ### The classifiers: R293 to R296 -/

section
variable {s : State} {b : Bus} {f : LogicalFrame}

theorem ne_bits_of_reserved {t : TransferType} (ht : t.bits.toNat < 6) (h : 6 ≤ f.transferType.toNat) :
    f.transferType ≠ t.bits := fun heq => Nat.not_le.2 ht (heq ▸ h)

theorem dispatchByType_reserved (h : 6 ≤ f.transferType.toNat) : s.dispatchByType f = .next s := by
  obtain ht | ht := six_le_toNat_iff.1 h <;> simp only [State.dispatchByType, ht]

theorem dispatchByType_timesync (h : f.transferType = TransferType.timeSync.bits) : s.dispatchByType f = .next s := by
  simp only [State.dispatchByType, eq_bits_iff.1 h]

/-- The active bus ignores what is neither for the local node nor one of the two broadcasts (R295). -/
theorem classifyActive_ignored (hlocal : f.toAddress = s.address → s.dispatchByType f = .next s)
    (hkeep : ¬(f.toAddress = Config.keepAliveAddress ∧ f.transferType = TransferType.unsolicited.bits))
    (hsync : ¬(f.toAddress = Config.timeSyncAddress ∧ f.transferType = TransferType.timeSync.bits)) :
    s.classifyActive f = .next s := by
  rw [State.classifyActive, if_neg hkeep, if_neg hsync]
  exact ite_eq_right_iff.2 hlocal

/-- On the active bus a frame does what `classify_active` does with it. -/
theorem receiveFrame_active (hb : s.hears b) : receiveFrame b f s = s.classifyActive f := by
  rw [receiveFrame, if_pos hb.1, if_pos hb.2]
  refine ite_eq_right_iff.2 fun h6 => (classifyActive_ignored (fun _ => dispatchByType_reserved h6) ?_ ?_).symm
  · exact fun hk => ne_bits_of_reserved (by decide) h6 hk.2
  · exact fun ht => ne_bits_of_reserved (by decide) h6 ht.2

/-- On the inactive bus a frame does what `classify_inactive` does with it. -/
theorem receiveFrame_inactive (hd : s.delivers b = true) (hb : b ≠ s.activeBus) :
    receiveFrame b f s = s.classifyInactive f := by
  rw [receiveFrame, if_pos hd, if_neg hb]
  exact ite_eq_right_iff.2 fun h6 => (if_neg fun hk => ne_bits_of_reserved (by decide) h6 hk.2).symm
end

/-- Settles O15: on the inactive bus an extended frame is left to `classify_inactive`, which asks for a keep-alive. -/
theorem inactiveBusGivesKeepAlivesOnly : Obligations.InactiveBusGivesKeepAlivesOnly := by
  intro s b c hd hb
  by_cases hc : c.extid = true ∧ c.rtr = false
  · rw [exec_frameReceived hc.1 hc.2, receiveFrame_inactive hd hb]
    simp only [hc, true_and]
    rfl
  · rw [frameReceived_malformed s hc, if_neg fun hk => hc ⟨hk.1, hk.2.1⟩]

/-- Settles O16: the branches of `classify_active`; the local address is neither 0x00 nor 0x01 while the engine runs (R31). -/
theorem activeBusBroadcasts : Obligations.ActiveBusBroadcasts := by
  intro s b c hi hb hx hr
  obtain ⟨-, -, -, hunicast, -⟩ := hi
  obtain ⟨hne0, hne1⟩ := hunicast (Bool.and_eq_true_iff.1 hb.1).1
  rw [exec_frameReceived hx hr, receiveFrame_active hb]
  refine ⟨fun hto htype => ?keepalive, fun hto htype => ?timesync, fun hto hkeep hsync => ?others,
    fun hto htype => ?localNode⟩
  case keepalive =>
    have hother : idToAddress c.id ≠ s.address := fun h => hne1 (h.symm.trans hto)
    exact (if_neg hother).trans (if_pos ⟨hto, htype⟩)
  case timesync =>
    have hother : idToAddress c.id ≠ s.address := fun h => hne0 (h.symm.trans hto)
    have hkeep : ¬(idToAddress c.id = 0x01 ∧ idTransferType c.id = 1) := by simp [hto]
    exact (if_neg hother).trans ((if_neg hkeep).trans (if_pos ⟨hto, htype⟩))
  case others => exact classifyActive_ignored (fun h => absurd h hto) hkeep hsync
  case localNode =>
    exact (if_pos hto).trans
      (htype.elim (dispatchByType_timesync (f := frameFields c)) (dispatchByType_reserved (f := frameFields c)))

/-- Settles O21: every one of these kinds stands behind the gate `receiveLocal`. -/
theorem framesForOthersAreIgnored : Obligations.FramesForOthersAreIgnored := by
  intro s b t f ch n done d hn
  simp only [exec_tcAck, exec_tcNack, exec_tmAck, exec_tmNack, exec_sbAck, exec_sbNack, exec_sbReport, exec_gbAck,
    exec_gbNack, exec_gbTransfer, exec_unsol, atPort_received, receiveLocal_not s hn, and_self]

/-! ### Confirmations without effect: R297, R299 -/

/-- Settles O22: the gate `confirm` passes nothing on from the inactive bus, and `State.settle` writes one driver. -/
theorem inactiveConfirmationsAreIgnored : Obligations.InactiveConfirmationsAreIgnored := by
  intro s b c r hd hb
  rw [exec_frameSent, exec_sendError]
  exact ⟨s.settle b c, confirm_inactive s hd hb, confirm_inactive s hd hb, setLink_changes_links s b _,
    link_setLink_otherBus s b _, link_setLink_self s b _⟩

/-- Settles O20: a response kind has no action behind the gate `confirm`. -/
theorem confirmedResponsesAreIgnored : Obligations.ConfirmedResponsesAreIgnored := by
  intro s p t f ch n done d hn hd
  simp only [exec_tcAck, exec_tcNack, exec_tmAck, exec_tmNack, exec_sbAck, exec_sbNack, exec_sbReport, exec_gbAck,
    exec_gbNack, exec_gbTransfer, atPort_confirmed_next hn hd, and_self]

/-! ### The bus switch: R300 -/

theorem exec_canBusSwitch_running {s : State} (hr : s.running = true) :
    exec .canBusSwitch s = .next { s.clearRegistries with activeBus := otherBus s.activeBus } := if_pos hr

theorem exec_canBusSwitch_stopped {s : State} (hr : s.running = false) : exec .canBusSwitch s = .next s :=
  if_neg (by simp [hr])

/-- Settles O23: the switch leaves the engine running, so the second one toggles the bus back. -/
theorem busSwitch : Obligations.BusSwitch := by
  refine ⟨fun s hr => exec_canBusSwitch_running hr, fun s hr => exec_canBusSwitch_stopped hr,
    fun s t u hr hst htu => ?_⟩
  have ht := hst.symm.trans (exec_canBusSwitch_running hr)
  have hrt : t.running = true := by cases ht; exact hr
  have hu := htu.symm.trans (exec_canBusSwitch_running hrt)
  cases ht
  cases hu
  exact ⟨otherBus_otherBus s.activeBus, rfl, rfl, rfl, rfl⟩

end Sys2Proof.Machine
end

section
/-! PROOFS. Telecommand and telemetry (R340 to R357): valid commands, confirmations, responses and watchdogs.

A handler looks its transfer up, acts on a record that is in the state the handler is for, and changes nothing otherwise.
`forRecord` is that shape, one equation for each handler says which test and which action it has, and what follows from the
shape is proved once. -/

namespace Sys2Proof.Machine

/-! ### The shape of a handler: R299, R348, R358 -/

/-- `g` of the record that was found if it meets `c`, and `d` if it does not or if none was found. -/
def forRecord {ρ α : Type} (found : Option ρ) (c : ρ → Prop) [DecidablePred c] (g : ρ → α) (d : α) : α :=
  match found with
  | some r => if c r then g r else d
  | none => d

section
variable {ρ α : Type} {found : Option ρ} {c : ρ → Prop} [DecidablePred c] {g : ρ → α} {d : α}

theorem forRecord_of_met {r : ρ} (hf : found = some r) (hc : c r) : forRecord found c g d = g r := by
  subst hf; exact if_pos hc

theorem forRecord_of_unmet (h : ∀ r, found = some r → ¬c r) : forRecord found c g d = d := by
  cases found with
  | none => rfl
  | some r => exact if_neg (h r rfl)

/-- What holds of the action on a record that meets the test, and of no action, holds of the handler. -/
theorem forRecord_ind {P : α → Prop} (hg : ∀ r, found = some r → c r → P (g r)) (hd : P d) :
    P (forRecord found c g d) := by
  by_cases h : ∃ r, found = some r ∧ c r
  · obtain ⟨r, hf, hc⟩ := h
    rw [forRecord_of_met hf hc]; exact hg r hf hc
  · rw [forRecord_of_unmet fun r hf hc => h ⟨r, hf, hc⟩]; exact hd

/-- An instruction that runs a handler has the action's effect on a record that meets the test, and else no effect. -/
theorem next_forRecord {res : Result} {g : ρ → State} {u : State} {Q : ρ → State → Prop}
    (hres : res = .next (forRecord found c g u)) (hQ : ∀ r, found = some r → Q r (g r)) :
    ∃ t, res = .next t ∧ (∀ r, found = some r → c r → Q r t) ∧ ((∀ r, found = some r → ¬c r) → t = u) :=
  ⟨_, hres, fun r hf hc => forRecord_of_met (d := u) (g := g) hf hc ▸ hQ r hf, forRecord_of_unmet⟩
end

section
variable (s : State) (a ch : Byte) (d : List Byte)

theorem tcRequestSent_eq : s.tcRequestSent a ch = forRecord (s.lookupTc a ch) (·.tx = .sendingRequest)
    (fun r => s.putTc { r with wd := .armed s.timeoutMs, tx := .idle, rx := .waitingForRequestAck,
                               retryCount := r.retryCount + 1 }) s := by
  unfold State.tcRequestSent; cases s.lookupTc a ch <;> rfl

theorem tcRequestError_eq : s.tcRequestError a ch =
    forRecord (s.lookupTc a ch) (·.tx = .sendingRequest) (s.failTc · .sendRequestFailed) s := by
  unfold State.tcRequestError; cases s.lookupTc a ch <;> rfl

theorem tcOnAck_eq : s.tcOnAck a ch = forRecord (s.lookupTc a ch) (·.rx = .waitingForRequestAck) s.completeTc s := by
  unfold State.tcOnAck; cases s.lookupTc a ch <;> rfl

theorem tcOnNack_eq : s.tcOnNack a ch = forRecord (s.lookupTc a ch) (·.rx = .waitingForRequestAck)
    (fun r => s.tcRetry { r with wd := .idle, rx := .idle }) s := by
  unfold State.tcOnNack; cases s.lookupTc a ch <;> rfl

theorem execWdFireTc_eq : execWdFireTc a ch s = .next (forRecord (s.lookupTc a ch)
    (fun r => s.running = true ∧ r.wd.isArmed = true) (fun r => s.tcRetry { r with wd := .idle, rx := .idle }) s) := by
  unfold execWdFireTc forRecord
  cases s.lookupTc a ch with
  | none => rfl
  | some r => simp only [Bool.and_eq_true, apply_ite Host.Outcome.next]

theorem tmRequestSent_eq : s.tmRequestSent a ch = forRecord (s.lookupTm a ch) (·.tx = .sendingRequest)
    (fun r => s.putTm { r with wd := .armed s.timeoutMs, tx := .idle, rx := .waitingForRequestAck,
                               retryCount := r.retryCount + 1 }) s := by
  unfold State.tmRequestSent; cases s.lookupTm a ch <;> rfl

theorem tmRequestError_eq : s.tmRequestError a ch =
    forRecord (s.lookupTm a ch) (·.tx = .sendingRequest) (s.failTm · .sendRequestFailed) s := by
  unfold State.tmRequestError; cases s.lookupTm a ch <;> rfl

theorem tmOnAck_eq : s.tmOnAck a ch d =
    forRecord (s.lookupTm a ch) (·.rx = .waitingForRequestAck) (s.completeTm · d) s := by
  unfold State.tmOnAck; cases s.lookupTm a ch <;> rfl

theorem tmOnNack_eq : s.tmOnNack a ch = forRecord (s.lookupTm a ch) (·.rx = .waitingForRequestAck)
    (fun r => s.tmRetry { r with wd := .idle, rx := .idle }) s := by
  unfold State.tmOnNack; cases s.lookupTm a ch <;> rfl

theorem execWdFireTm_eq : execWdFireTm a ch s = .next (forRecord (s.lookupTm a ch)
    (fun r => s.running = true ∧ r.wd.isArmed = true) (fun r => s.tmRetry { r with wd := .idle, rx := .idle }) s) := by
  unfold execWdFireTm forRecord
  cases s.lookupTm a ch with
  | none => rfl
  | some r => simp only [Bool.and_eq_true, apply_ite Host.Outcome.next]
end

/-! ### Confirmed REQUESTs: R342, R347, R352, R357 -/

section
variable {s : State} {b : Bus} {t f ch : Byte} {d : List Byte}

theorem exec_tcRequest_sent (hb : s.hears b) : exec (.tcRequest ⟨b, .sent⟩ t f ch d) s =
    .next ((s.settle b (encodeFrame (tcFrame .request t f ch d))).tcRequestSent t ch) :=
  confirm_hears s (h := fun u => .next (u.tcRequestSent t ch)) hb

theorem exec_tcRequest_sendError {e : SendErrorReason} (hb : s.hears b) :
    exec (.tcRequest ⟨b, .sendError e⟩ t f ch d) s =
      .next ((s.settle b (encodeFrame (tcFrame .request t f ch d))).tcRequestError t ch) :=
  confirm_hears s (h := fun u => .next (u.tcRequestError t ch)) hb

theorem exec_tmRequest_sent (hb : s.hears b) : exec (.tmRequest ⟨b, .sent⟩ t f ch d) s =
    .next ((s.settle b (encodeFrame (tmFrame .request t f ch d))).tmRequestSent t ch) :=
  confirm_hears s (h := fun u => .next (u.tmRequestSent t ch)) hb

theorem exec_tmRequest_sendError {e : SendErrorReason} (hb : s.hears b) :
    exec (.tmRequest ⟨b, .sendError e⟩ t f ch d) s =
      .next ((s.settle b (encodeFrame (tmFrame .request t f ch d))).tmRequestError t ch) :=
  confirm_hears s (h := fun u => .next (u.tmRequestError t ch)) hb
end

/-- Settles O29: behind the gate `confirm` the record is written back; the confirmed frame leaves the registries alone. -/
theorem telecommandRequestConfirmed : Obligations.TelecommandRequestConfirmed := by
  refine ⟨fun s b t f ch d hb => ?_, fun s b t f ch d hb => ?_⟩
  · have hres := exec_tcRequest_sent (t := t) (f := f) (ch := ch) (d := d) hb
    rw [tcRequestSent_eq, lookupTc_settle, settle_timeoutMs] at hres
    refine next_forRecord hres fun r hl => ?_
    obtain ⟨rfl, rfl⟩ := lookupTc_key hl
    exact putTc_changes _ _
  · have hres := exec_tmRequest_sent (t := t) (f := f) (ch := ch) (d := d) hb
    rw [tmRequestSent_eq, lookupTm_settle, settle_timeoutMs] at hres
    refine next_forRecord hres fun r hl => ?_
    obtain ⟨rfl, rfl⟩ := lookupTm_key hl
    exact putTm_changes _ _

/-- Settles O33: behind the gate `confirm` the record fails; the handler does not read the reason. -/
theorem telecommandSendError : Obligations.TelecommandSendError := by
  refine ⟨fun s b e t f ch d hb => ?_, fun s b e t f ch d hb => ?_⟩
  · have hres := exec_tcRequest_sendError (e := e) (t := t) (f := f) (ch := ch) (d := d) hb
    rw [tcRequestError_eq, lookupTc_settle] at hres
    refine next_forRecord hres fun r hl => ?_
    obtain ⟨rfl, rfl⟩ := lookupTc_key hl
    exact failTc_changes _ _ _
  · have hres := exec_tmRequest_sendError (e := e) (t := t) (f := f) (ch := ch) (d := d) hb
    rw [tmRequestError_eq, lookupTm_settle] at hres
    refine next_forRecord hres fun r hl => ?_
    obtain ⟨rfl, rfl⟩ := lookupTm_key hl
    exact failTm_changes _ _ _

/-! ### Responses: R343, R344, R353, R354 -/

section
variable {s : State} {b : Bus} {f ch : Byte} {d : List Byte}

theorem exec_tcAck_local (hb : s.hears b) :
    exec (.tcAck ⟨b, .received⟩ s.address f ch d) s = .next (s.tcOnAck f ch) :=
  receiveLocal_hears s (h := fun u => .next (u.tcOnAck f ch)) hb rfl

theorem exec_tcNack_local (hb : s.hears b) :
    exec (.tcNack ⟨b, .received⟩ s.address f ch d) s = .next (s.tcOnNack f ch) :=
  receiveLocal_hears s (h := fun u => .next (u.tcOnNack f ch)) hb rfl

theorem exec_tmAck_local (hb : s.hears b) :
    exec (.tmAck ⟨b, .received⟩ s.address f ch d) s = .next (s.tmOnAck f ch d) :=
  receiveLocal_hears s (h := fun u => .next (u.tmOnAck f ch d)) hb rfl

theorem exec_tmNack_local (hb : s.hears b) :
    exec (.tmNack ⟨b, .received⟩ s.address f ch d) s = .next (s.tmOnNack f ch) :=
  receiveLocal_hears s (h := fun u => .next (u.tmOnNack f ch)) hb rfl
end

/-- Settles O30: behind the gate `receiveLocal` the transfer ends with its completion. -/
theorem telecommandAck : Obligations.TelecommandAck := by
  refine ⟨fun s b f ch d hb => ?_, fun s b f ch d hb => ?_⟩
  · refine next_forRecord ((exec_tcAck_local hb).trans (by rw [tcOnAck_eq])) fun r hl => ?_
    obtain ⟨rfl, rfl⟩ := lookupTc_key hl
    exact endTransfer_tc s _ _ _
  · refine next_forRecord ((exec_tmAck_local hb).trans (by rw [tmOnAck_eq])) fun r hl => ?_
    obtain ⟨rfl, rfl⟩ := lookupTm_key hl
    exact endTransfer_tm s _ _ _

/-- Settles O31: behind the gate `receiveLocal` the retry policy runs on the record with its watchdog stopped. -/
theorem telecommandNack : Obligations.TelecommandNack := by
  refine ⟨fun s b f ch d hb => ?_, fun s b f ch d hb => ?_⟩
  · exact next_forRecord ((exec_tcNack_local hb).trans (by rw [tcOnNack_eq])) fun r _ => tcRetry_retries s _
  · exact next_forRecord ((exec_tmNack_local hb).trans (by rw [tmOnNack_eq])) fun r _ => tmRetry_retries s _

/-! ### Watchdogs: R345, R355 -/

theorem not_isArmed_of_idle {w : Timer} (h : w = .idle) : ¬w.isArmed = true := by simp [h, Timer.isArmed]

/-- Settles O32: while the engine runs, the test of a watchdog fire is that the watchdog is armed. -/
theorem telecommandWatchdog : Obligations.TelecommandWatchdog := by
  refine ⟨fun s a ch hr => ?_, fun s a ch hr => ?_⟩
  · obtain ⟨t, hnext, harmed, hidle⟩ := next_forRecord (execWdFireTc_eq s a ch)
      (Q := fun r t => RetriesTc s t { r with wd := .idle, rx := .idle }) fun r _ => tcRetry_retries s _
    exact ⟨t, hnext, fun r hl hw => harmed r hl ⟨hr, hw⟩,
      fun h => hidle fun r hl hw => not_isArmed_of_idle (h r hl) hw.2⟩
  · obtain ⟨t, hnext, harmed, hidle⟩ := next_forRecord (execWdFireTm_eq s a ch)
      (Q := fun r t => RetriesTm s t { r with wd := .idle, rx := .idle }) fun r _ => tmRetry_retries s _
    exact ⟨t, hnext, fun r hl hw => harmed r hl ⟨hr, hw⟩,
      fun h => hidle fun r hl hw => not_isArmed_of_idle (h r hl) hw.2⟩

/-! ### Valid commands: R341, R351 -/

section
variable {u t : State} {a ch : Byte} {ev : List HostOut}

/-- A result reaches the host after the events of its command (R528). -/
theorem ChangesTc.giveBool {r : Option TcRec} (h : ChangesTc u t a ch r ev) (v : Bool) :
    ChangesTc u (t.giveBool v) a ch r (ev ++ [.result (.bool v)]) := by
  obtain ⟨hself, hother, heq⟩ := h
  refine ⟨hself, hother, ?_⟩
  rw [heq]
  simp [State.giveBool, State.give]

theorem ChangesTm.giveBool {r : Option TmRec} (h : ChangesTm u t a ch r ev) (v : Bool) :
    ChangesTm u (t.giveBool v) a ch r (ev ++ [.result (.bool v)]) := by
  obtain ⟨hself, hother, heq⟩ := h
  refine ⟨hself, hother, ?_⟩
  rw [heq]
  simp [State.giveBool, State.give]

/-- An event without a record: no transfer was created (R341, R351). -/
theorem emit_changesTc (e : OutEvent) (h : u.lookupTc a ch = none) : ChangesTc u (u.emit e) a ch none [.event e] :=
  ⟨h, fun _ _ _ => rfl, rfl⟩

theorem emit_changesTm (e : OutEvent) (h : u.lookupTm a ch = none) : ChangesTm u (u.emit e) a ch none [.event e] :=
  ⟨h, fun _ _ _ => rfl, rfl⟩
end

theorem isBroadcast_of_unicast {a : Byte} (h : Unicast a) : isBroadcast a = false := by
  simpa [isBroadcast, Config.timeSyncAddress, Config.keepAliveAddress, Unicast] using h

section
variable {s : State} {addr ch : Byte} (retry : Byte)

/-- A valid SendTC passes every test of R340 and offers its REQUEST to the driver. -/
theorem exec_sendTc_valid {d : List Byte} (hr : s.running = true) (ha : Unicast addr) (hl : s.lookupTc addr ch = none)
    (hd : d.length ≤ 8) : exec (.sendTc addr ch d retry) s =
      let u := s.afterSend (tcFrame .request addr s.address ch d)
      if s.accepts then .next ((u.putTc (newTcRec addr ch d retry)).giveBool true)
      else .next ((u.emit (.sendTcFailed addr ch .sendRequestFailed)).giveBool false) := by
  have hd' : ¬d.length > 8 := Nat.not_lt.2 hd
  simp only [exec, execSendTc, hr, isBroadcast_of_unicast ha, hl, hd', Option.isSome_none, Bool.true_eq_false,
    Bool.false_eq_true, if_false]
  rfl

/-- A valid ReceiveTM passes every test of R350 and offers its REQUEST to the driver. -/
theorem exec_receiveTm_valid (hr : s.running = true) (ha : Unicast addr) (hl : s.lookupTm addr ch = none) :
    exec (.receiveTm addr ch retry) s =
      let u := s.afterSend (tmFrame .request addr s.address ch [])
      if s.accepts then .next ((u.putTm (newTmRec addr ch retry)).giveBool true)
      else .next ((u.emit (.receiveTmFailed addr ch .sendRequestFailed)).giveBool false) := by
  simp only [exec, execReceiveTm, hr, isBroadcast_of_unicast ha, hl, Option.isSome_none, Bool.true_eq_false,
    Bool.false_eq_true, if_false]
  rfl
end

/-- Settles O24: the driver's answer decides between the new record and the failure event, each with its result. -/
theorem sendTcAndReceiveTmStart : Obligations.SendTcAndReceiveTmStart := by
  refine ⟨fun s addr ch retry d hr h0 h1 hl hd => ?_, fun s addr ch retry hr h0 h1 hl => ?_⟩
  · rw [exec_sendTc_valid retry hr ⟨h0, h1⟩ hl hd]
    by_cases hacc : s.accepts = true
    · simp only [if_pos hacc]
      exact ⟨_, rfl, (putTc_changes _ (newTcRec addr ch d retry)).giveBool true⟩
    · simp only [if_neg hacc]
      exact ⟨_, rfl, (emit_changesTc _ (by rwa [lookupTc_afterSend])).giveBool false⟩
  · rw [exec_receiveTm_valid retry hr ⟨h0, h1⟩ hl]
    by_cases hacc : s.accepts = true
    · simp only [if_pos hacc]
      exact ⟨_, rfl, (putTm_changes _ (newTmRec addr ch retry)).giveBool true⟩
    · simp only [if_neg hacc]
      exact ⟨_, rfl, (emit_changesTm _ (by rwa [lookupTm_afterSend])).giveBool false⟩

end Sys2Proof.Machine
end

section
/-! PROOFS. What leaves the TC and the TM records as they are (`SameTt`): every handler of a block transfer, the commands
for block transfers and auxiliary frames, and Start. No invariant is assumed here, so a result may be a fault: `Ensures`
speaks of the next state if there is one. -/

namespace Sys2Proof.Machine

/-! ### Results and the states they go on to -/

/-- Every state that a result goes on to meets `P`. -/
def Ensures (P : State → Prop) (r : Result) : Prop := ∀ t, r = .next t → P t

section
variable {P P' : State → Prop} {r : Result}

theorem ensures_next {t : State} (h : P t) : Ensures P (.next t) := by rintro _ ⟨⟩; exact h

theorem Ensures.mono (hr : Ensures P r) (h : ∀ t, P t → P' t) : Ensures P' r := fun t ht => h t (hr t ht)

theorem ensures_ite {c : Prop} [Decidable c] {r' : Result} (h : c → Ensures P r) (h' : ¬c → Ensures P r') :
    Ensures P (if c then r else r') := by
  split
  · exact h ‹_›
  · exact h' ‹_›

theorem ensures_checked {α : Type} {v : Except Fault α} {k : α → Result} (h : ∀ a, Ensures P (k a)) :
    Ensures P (checked v k) := by
  cases v with
  | ok a => exact h a
  | error e => rintro t ⟨⟩

theorem ensures_confirm {s : State} {b : Bus} {c : CanFrame} {h : State → Result} (hs : P s) (hleft : P (s.settle b c))
    (hh : Ensures P (h (s.settle b c))) : Ensures P (confirm b c s h) :=
  ensures_ite (fun _ => ensures_ite (fun _ => hh) fun _ => ensures_next hleft) fun _ => ensures_next hs

theorem ensures_receiveLocal {s : State} {b : Bus} {a : Byte} {h : State → Result} (hs : P s) (hh : Ensures P (h s)) :
    Ensures P (receiveLocal b a s h) :=
  ensures_ite (fun _ => hh) fun _ => ensures_next hs
end

/-! ### Both registries of TC and TM as they are -/

/-- `t` holds the TC and the TM records of `s`. -/
structure SameTt (s t : State) : Prop where
  tc : t.tc = s.tc
  tm : t.tm = s.tm

/-- A result leaves the TC and the TM records as they are. -/
abbrev LeavesTt (s : State) (r : Result) : Prop := Ensures (SameTt s) r

section
variable {s t : State}

theorem SameTt.refl (s : State) : SameTt s s := ⟨rfl, rfl⟩

theorem leavesTt_next (h : SameTt s t) : LeavesTt s (.next t) := ensures_next h

theorem leavesTt_self : LeavesTt s (.next s) := leavesTt_next (.refl s)

theorem ChangesSb.sameTt {u : State} {a : Byte} {r : Option SbRec} {ev : List HostOut} (h : ChangesSb u t a r ev)
    (hu : SameTt s u) : SameTt s t := by
  obtain ⟨-, -, heq⟩ := h
  rw [heq]; exact ⟨hu.tc, hu.tm⟩

theorem ChangesGb.sameTt {u : State} {a : Byte} {r : Option GbRec} {ev : List HostOut} (h : ChangesGb u t a r ev)
    (hu : SameTt s u) : SameTt s t := by
  obtain ⟨-, -, heq⟩ := h
  rw [heq]; exact ⟨hu.tc, hu.tm⟩
theorem SameTt.emit (h : SameTt s t) (e : OutEvent) : SameTt s (t.emit e) := ⟨h.tc, h.tm⟩

theorem SameTt.giveBool (h : SameTt s t) (v : Bool) : SameTt s (t.giveBool v) := ⟨h.tc, h.tm⟩

theorem SameTt.putSb (h : SameTt s t) (r : SbRec) : SameTt s (t.putSb r) := ⟨h.tc, h.tm⟩

theorem SameTt.putGb (h : SameTt s t) (r : GbRec) : SameTt s (t.putGb r) := ⟨h.tc, h.tm⟩
end

section
variable (s : State) (a : Byte)

theorem afterSend_sameTt (f : LogicalFrame) : SameTt s (s.afterSend f) := ⟨afterSend_tc s f, afterSend_tm s f⟩

/-! ### Set block: R380 to R426 -/

theorem sbRequestSent_eq : s.sbRequestSent a = forRecord (s.lookupSb a) (·.tx = .sendingRequest)
    (fun r => s.putSb (r.awaiting s.timeoutMs .waitingForRequestAck)) s := by
  unfold State.sbRequestSent; cases s.lookupSb a <;> rfl

theorem sbStatusSent_eq : s.sbStatusSent a = forRecord (s.lookupSb a) (·.tx = .sendingStatusRequest)
    (fun r => s.putSb (r.awaiting s.timeoutMs .waitingForData)) s := by
  unfold State.sbStatusSent; cases s.lookupSb a <;> rfl

theorem sbAbortSent_eq : s.sbAbortSent a = forRecord (s.lookupSb a) (·.tx = .sendingAbort)
    (fun r => s.putSb (r.awaiting s.timeoutMs .waitingForAbortAck)) s := by
  unfold State.sbAbortSent; cases s.lookupSb a <;> rfl

theorem sbFrameError_eq (tx : SbTx) (k : SbKind) :
    s.sbFrameError a tx k = forRecord (s.lookupSb a) (·.tx = tx) (s.failSb · k) s := by
  unfold State.sbFrameError; cases s.lookupSb a <;> rfl

section
variable (r : SbRec)

theorem failSb_sameTt (k : SbKind) : SameTt s (s.failSb r k) := (failSb_changes s r k).sameTt (.refl s)

theorem completeSb_sameTt : SameTt s (s.completeSb r) := (endTransfer_sb s r.address _).sameTt (.refl s)

theorem putSb_sameTt : SameTt s (s.putSb r) := (SameTt.refl s).putSb r

theorem sbHandOff_sameTt (f : LogicalFrame) (tx : SbTx) (k : SbKind) : SameTt s (s.sbHandOff r f tx k) := by
  have h := sbHandOff_handsOff s r f tx k
  unfold HandsOffSb at h
  split at h <;> exact h.sameTt (afterSend_sameTt s f)

theorem sbSendTransfer_leavesTt (k : Nat) : LeavesTt s (s.sbSendTransfer r k) :=
  ensures_checked fun f => leavesTt_next (sbHandOff_sameTt s r f _ _)

theorem sbRetryRequest_sameTt : SameTt s (s.sbRetryRequest r) := by
  unfold State.sbRetryRequest
  split
  · exact failSb_sameTt s r _
  · exact sbHandOff_sameTt s r _ _ _

theorem sbRetryStatus_sameTt : SameTt s (s.sbRetryStatus r) := by
  unfold State.sbRetryStatus
  split
  · exact failSb_sameTt s r _
  · exact sbHandOff_sameTt s r _ _ _

theorem sbRetryAbort_leavesTt : LeavesTt s (s.sbRetryAbort r) :=
  ensures_ite (fun _ => ensures_checked fun _ => leavesTt_next (failSb_sameTt s r _))
    fun _ => leavesTt_next (sbHandOff_sameTt s r _ _ _)

theorem sbReportBranch_leavesTt : LeavesTt s (s.sbReportBranch r) := by
  have habort : LeavesTt s (.next (s.sbSendAbort r)) := leavesTt_next (sbHandOff_sameTt s r _ _ _)
  refine ensures_checked fun missing => ensures_ite (fun _ => habort) fun _ => ensures_ite (fun _ => habort) fun _ => ?_
  cases missing with
  | none => exact leavesTt_next (putSb_sameTt s _)
  | some k => exact sbSendTransfer_leavesTt s _ k
end

theorem sbRequestSent_sameTt : SameTt s (s.sbRequestSent a) :=
  sbRequestSent_eq s a ▸ forRecord_ind (fun _ _ _ => putSb_sameTt s _) (.refl s)

theorem sbStatusSent_sameTt : SameTt s (s.sbStatusSent a) :=
  sbStatusSent_eq s a ▸ forRecord_ind (fun _ _ _ => putSb_sameTt s _) (.refl s)

theorem sbAbortSent_sameTt : SameTt s (s.sbAbortSent a) :=
  sbAbortSent_eq s a ▸ forRecord_ind (fun _ _ _ => putSb_sameTt s _) (.refl s)

theorem sbFrameError_sameTt (tx : SbTx) (k : SbKind) : SameTt s (s.sbFrameError a tx k) :=
  sbFrameError_eq s a tx k ▸ forRecord_ind (fun r _ _ => failSb_sameTt s r k) (.refl s)

theorem sbTransferSent_leavesTt (q : Seq) : LeavesTt s (s.sbTransferSent a q) := by
  unfold State.sbTransferSent
  split
  · refine ensures_ite (fun _ => ensures_checked fun bitmap => ensures_checked fun unsent => ?_) fun _ => leavesTt_self
    cases unsent with
    | none => exact leavesTt_next (putSb_sameTt s _)
    | some k => exact sbSendTransfer_leavesTt s _ k
  · exact leavesTt_self

theorem sbOnAck_leavesTt (n : Seq) (d : List Byte) : LeavesTt s (s.sbOnAck a n d) := by
  unfold State.sbOnAck
  split
  · split
    · exact ensures_ite (fun _ => sbSendTransfer_leavesTt s _ 0) fun _ => leavesTt_self
    · refine ensures_ite (fun _ => ensures_checked fun ok => leavesTt_next ?_) fun _ => leavesTt_self
      split
      · exact completeSb_sameTt s _
      · exact failSb_sameTt s _ _
    · exact leavesTt_self
    · exact leavesTt_self
  · exact leavesTt_self

theorem sbOnNack_leavesTt (n : Seq) (d : List Byte) : LeavesTt s (s.sbOnNack a n d) := by
  unfold State.sbOnNack
  split
  · split
    · exact leavesTt_next (sbRetryRequest_sameTt s _)
    · exact leavesTt_next (sbRetryStatus_sameTt s _)
    · exact ensures_ite (fun _ => ensures_checked fun _ => leavesTt_next (failSb_sameTt s _ _)) fun _ => leavesTt_self
    · exact leavesTt_self
  · exact leavesTt_self

theorem sbOnReport_leavesTt (done : Bool) (d : List Byte) : LeavesTt s (s.sbOnReport a done d) := by
  unfold State.sbOnReport
  split
  · refine ensures_ite (fun _ => ensures_checked fun ok => ?_) fun _ => leavesTt_self
    exact ensures_ite (fun _ => sbReportBranch_leavesTt s _) fun _ => leavesTt_self
  · exact leavesTt_self

theorem wdFireSb_leavesTt : LeavesTt s (execWdFireSb a s) := by
  unfold execWdFireSb
  split
  · refine ensures_ite (fun _ => ?_) fun _ => leavesTt_self
    dsimp only
    split
    · exact leavesTt_next (sbRetryStatus_sameTt s _)
    · split
      · exact leavesTt_next (sbRetryRequest_sameTt s _)
      · exact leavesTt_next (sbRetryStatus_sameTt s _)
      · exact sbRetryAbort_leavesTt s _
      · exact sbRetryAbort_leavesTt s _
  · exact leavesTt_self

theorem rdFireSb_leavesTt : LeavesTt s (execRdFireSb a s) := by
  unfold execRdFireSb
  split
  · exact ensures_ite (fun _ => leavesTt_next (sbHandOff_sameTt s _ _ _ _)) fun _ => leavesTt_self
  · exact leavesTt_self

/-! ### Get block: R440 to R477 -/

theorem gbRequestSent_eq : s.gbRequestSent a = forRecord (s.lookupGb a) (·.tx = .sendingRequest)
    (fun r => s.putGb { r with wd := .armed s.timeoutMs, tx := .idle, rx := .waitingForRequestAck,
                               retryCount := r.retryCount + 1 }) s := by
  unfold State.gbRequestSent; cases s.lookupGb a <;> rfl

theorem gbStartSent_eq : s.gbStartSent a = forRecord (s.lookupGb a) (·.tx = .sendingStart)
    (fun r => s.putGb { r with wd := .armed s.timeoutMs, tx := .idle, rx := .waitingForData,
                               startRetryCount := r.startRetryCount + 1 }) s := by
  unfold State.gbStartSent; cases s.lookupGb a <;> rfl

theorem gbAbortSent_eq : s.gbAbortSent a = forRecord (s.lookupGb a) (·.tx = .sendingAbort)
    (fun r => s.putGb { r with wd := .armed s.timeoutMs, tx := .idle, rx := .waitingForAbortAck,
                               retryCount := r.retryCount + 1 }) s := by
  unfold State.gbAbortSent; cases s.lookupGb a <;> rfl

theorem gbFrameError_eq (tx : GbTx) (k : GbKind) :
    s.gbFrameError a tx k = forRecord (s.lookupGb a) (·.tx = tx) (s.failGb · k) s := by
  unfold State.gbFrameError; cases s.lookupGb a <;> rfl

section
variable (r : GbRec)

theorem failGb_sameTt (k : GbKind) : SameTt s (s.failGb r k) := (failGb_changes s r k).sameTt (.refl s)

theorem completeGb_sameTt : SameTt s (s.completeGb r) := (endTransfer_gb s r.address _).sameTt (.refl s)

theorem putGb_sameTt : SameTt s (s.putGb r) := (SameTt.refl s).putGb r

theorem gbHandOff_sameTt (f : LogicalFrame) (tx : GbTx) (k : GbKind) : SameTt s (s.gbHandOff r f tx k) := by
  have h := gbHandOff_handsOff s r f tx k
  unfold HandsOffGb at h
  split at h <;> exact h.sameTt (afterSend_sameTt s f)

theorem gbRetryRequest_sameTt : SameTt s (s.gbRetryRequest r) := by
  unfold State.gbRetryRequest
  split
  · exact failGb_sameTt s r _
  · exact gbHandOff_sameTt s r _ _ _

theorem gbRetryStart_sameTt : SameTt s (s.gbRetryStart r) := by
  unfold State.gbRetryStart
  split
  · exact failGb_sameTt s r _
  · exact gbHandOff_sameTt s r _ _ _

theorem gbRetryAbort_sameTt : SameTt s (s.gbRetryAbort r) := by
  unfold State.gbRetryAbort
  split
  · exact failGb_sameTt s r _
  · exact gbHandOff_sameTt s r _ _ _

theorem gbAfterTransfer_leavesTt : LeavesTt s (s.gbAfterTransfer r) :=
  ensures_checked fun _ => ensures_ite (fun _ => leavesTt_next (gbHandOff_sameTt s _ _ _ _))
    fun _ => leavesTt_next (putGb_sameTt s _)
end

theorem gbRequestSent_sameTt : SameTt s (s.gbRequestSent a) :=
  gbRequestSent_eq s a ▸ forRecord_ind (fun _ _ _ => putGb_sameTt s _) (.refl s)

theorem gbStartSent_sameTt : SameTt s (s.gbStartSent a) :=
  gbStartSent_eq s a ▸ forRecord_ind (fun _ _ _ => putGb_sameTt s _) (.refl s)

theorem gbAbortSent_sameTt : SameTt s (s.gbAbortSent a) :=
  gbAbortSent_eq s a ▸ forRecord_ind (fun _ _ _ => putGb_sameTt s _) (.refl s)

theorem gbFrameError_sameTt (tx : GbTx) (k : GbKind) : SameTt s (s.gbFrameError a tx k) :=
  gbFrameError_eq s a tx k ▸ forRecord_ind (fun r _ _ => failGb_sameTt s r k) (.refl s)

theorem gbOnAck_sameTt (n : Seq) (d : List Byte) : SameTt s (s.gbOnAck a n d) := by
  unfold State.gbOnAck
  split
  · split
    · split
      · exact gbHandOff_sameTt s _ _ _ _
      · exact .refl s
    · split
      · split
        · exact failGb_sameTt s _ _
        · exact completeGb_sameTt s _
      · exact .refl s
    · exact .refl s
    · exact .refl s
  · exact .refl s

theorem gbOnNack_sameTt (n : Seq) (d : List Byte) : SameTt s (s.gbOnNack a n d) := by
  unfold State.gbOnNack
  split
  · split
    · exact gbRetryRequest_sameTt s _
    · exact gbRetryStart_sameTt s _
    · split
      · exact failGb_sameTt s _ _
      · exact .refl s
    · exact .refl s
  · exact .refl s

theorem gbOnTransfer_leavesTt (q : Seq) (d : List Byte) : LeavesTt s (s.gbOnTransfer a q d) := by
  unfold State.gbOnTransfer
  split
  · refine ensures_ite (fun _ => ensures_checked fun outstanding => ?_) fun _ => leavesTt_self
    refine ensures_ite (fun _ => ?_) fun _ => leavesTt_self
    exact ensures_checked fun _ => ensures_checked fun _ => gbAfterTransfer_leavesTt s _
  · exact leavesTt_self

theorem wdFireGb_leavesTt : LeavesTt s (execWdFireGb a s) := by
  unfold execWdFireGb
  split
  · refine ensures_ite (fun _ => ?_) fun _ => leavesTt_self
    dsimp only
    split
    · exact leavesTt_next (gbRetryRequest_sameTt s _)
    · split
      · exact leavesTt_next (gbRetryRequest_sameTt s _)
      · exact leavesTt_next (gbRetryStart_sameTt s _)
      · exact leavesTt_next (gbRetryAbort_sameTt s _)
      · exact leavesTt_next (gbRetryAbort_sameTt s _)
  · exact leavesTt_self
end

/-! ### Commands on block transfers, auxiliary frames and the lifecycle -/

section
variable (s : State)

/-- A command that is refused answers false. -/
theorem leavesTt_unless {c : Prop} [Decidable c] {r : Result} (h : ¬c → LeavesTt s r) :
    LeavesTt s (if c then .next (s.giveBool false) else r) :=
  ensures_ite (fun _ => leavesTt_next ((SameTt.refl s).giveBool false)) h

theorem sendBlock_leavesTt (a : Byte) (v : Word64) (d : List Byte) (retry : Byte) (ms : Word32) (reportRetry : Byte) :
    LeavesTt s (execSendBlock a v d retry ms reportRetry s) := by
  have hsent := afterSend_sameTt s (sbRequestFrame s.address (newSbRec a v d retry ms reportRetry))
  refine leavesTt_unless s fun _ => leavesTt_unless s fun _ => leavesTt_unless s fun _ => leavesTt_unless s fun _ => ?_
  exact ensures_ite (fun _ => leavesTt_next ((hsent.putSb _).giveBool true))
    fun _ => leavesTt_next ((hsent.emit _).giveBool false)

theorem receiveBlock_leavesTt (a : Byte) (v : Word64) (n : Nat) (retry startRetry : Byte) :
    LeavesTt s (execReceiveBlock a v n retry startRetry s) := by
  refine leavesTt_unless s fun _ => leavesTt_unless s fun _ => leavesTt_unless s fun _ => leavesTt_unless s fun _ => ?_
  refine ensures_checked fun bitmap => ?_
  have hsent := afterSend_sameTt s (gbRequestFrame s.address (newGbRec a v n bitmap retry startRetry))
  exact ensures_ite (fun _ => leavesTt_next ((hsent.putGb _).giveBool true))
    fun _ => leavesTt_next ((hsent.emit _).giveBool false)

theorem sendTimeSync_leavesTt (time : Word64) : LeavesTt s (execSendTimeSync time s) := by
  have hsent := afterSend_sameTt s (timesyncOut s.address time)
  refine leavesTt_unless s fun _ => ?_
  exact ensures_ite (fun _ => leavesTt_next (hsent.giveBool true)) fun _ => leavesTt_next ((hsent.emit _).giveBool false)

theorem sendUnsolicited_leavesTt (a ch : Byte) (d : List Byte) : LeavesTt s (execSendUnsolicited a ch d s) := by
  have hsent := afterSend_sameTt s (unsolOut s.address a ch d)
  refine leavesTt_unless s fun _ => leavesTt_unless s fun _ => ?_
  exact ensures_ite (fun _ => leavesTt_next (hsent.giveBool true)) fun _ => leavesTt_next ((hsent.emit _).giveBool false)

theorem start_leavesTt (a : Byte) (ms : Word32) (cfg : Settings) : LeavesTt s (execStart a ms cfg s) := by
  refine leavesTt_unless s fun _ => ?_
  cases cfg with
  | nonSerial => exact leavesTt_next ((SameTt.refl s).giveBool false)
  | serial nom red =>
    refine leavesTt_unless s fun _ => leavesTt_next ?_
    unfold State.startWith
    split
    · split <;> exact ⟨rfl, rfl⟩
    · exact ⟨rfl, rfl⟩

theorem keepaliveReceived_leavesTt (b : Bus) (f ch : Byte) (d : List Byte) :
    LeavesTt s (keepaliveReceived b f ch d s) := by
  have hout (e : OutEvent) : LeavesTt s (.next (s.emit e)) := leavesTt_next ((SameTt.refl s).emit e)
  exact ensures_ite (fun _ => ensures_ite (fun _ => ensures_ite (fun _ => hout _) fun _ => hout _) fun _ => hout _)
    fun _ => leavesTt_self

theorem timesyncReceived_leavesTt (b : Bus) (f : Byte) (d : List Byte) : LeavesTt s (timesyncReceived b f d s) :=
  ensures_ite (fun _ => leavesTt_next ((SameTt.refl s).emit _)) fun _ => leavesTt_self
end

end Sys2Proof.Machine
end

section
/-! PROOFS. The retry budget of TC and TM (R360). Three things write a TC or TM record: a valid command (count 0), a
confirmed REQUEST (one more, on a record whose REQUEST was in flight) and a retry (which tests the cap first). Each leaves
the record within its budget. A received notification is reduced to its frame kind and a confirmed kind to the routing of
its frame, so that each handler is met once. -/

namespace Sys2Proof.Machine

/-! ### The budget of one record: R346, R356, R360, R637 -/

/-- The budget of a record with cap `cap` and `count` confirmed REQUESTs; `budget_iff` ties it to `State.Budget`. -/
def WithinBudget (cap count : Byte) (tx : TtTx) : Prop :=
  cap = 255 ∨ count.toNat ≤ cap.toNat + (if tx = .sendingRequest then 0 else 1)

theorem budget_iff {s : State} : s.Budget ↔
    (∀ r ∈ s.tc, WithinBudget r.maxRetries r.retryCount r.tx) ∧
    (∀ r ∈ s.tm, WithinBudget r.maxRetries r.retryCount r.tx) := Iff.rfl

section
variable {cap count : Byte}

theorem withinBudget_zero (cap : Byte) (tx : TtTx) : WithinBudget cap 0 tx := .inr (Nat.zero_le _)

/-- The confirmed REQUEST was in flight, so it is at most number `cap + 1`; a count that wraps only falls. -/
theorem withinBudget_confirmed (h : WithinBudget cap count .sendingRequest) : WithinBudget cap (count + 1) .idle := by
  refine h.imp_right fun hle => ?_
  have hstep : (count + 1).toNat ≤ count.toNat + 1 := by
    rw [BitVec.toNat_add]; exact Nat.mod_le _ _
  simp only [if_true] at hle
  simp only [reduceCtorEq, if_false]
  omega

/-- A retry sends only after the test of the cap (R346, R356). -/
theorem withinBudget_resend (h : ¬count > cap) : WithinBudget cap count .sendingRequest :=
  .inr (BitVec.not_lt.1 h)
end

/-! ### The budget of the state -/

section
variable {s t : State} (hb : s.Budget)
include hb

theorem SameTt.budget (h : SameTt s t) : t.Budget := by
  rw [budget_iff, h.tc, h.tm]; exact hb

theorem ensures_budget {r : Result} (h : LeavesTt s r) : Ensures State.Budget r := h.mono fun _ h => h.budget hb

theorem budget_self : Ensures State.Budget (.next s) := ensures_next hb

theorem budget_putTc {r : TcRec} (hr : WithinBudget r.maxRetries r.retryCount r.tx) : (s.putTc r).Budget := by
  refine ⟨fun x hx => ?_, hb.2⟩
  obtain rfl | hx := mem_regPut hx
  · exact hr
  · exact hb.1 x hx

theorem budget_putTm {r : TmRec} (hr : WithinBudget r.maxRetries r.retryCount r.tx) : (s.putTm r).Budget := by
  refine ⟨hb.1, fun x hx => ?_⟩
  obtain rfl | hx := mem_regPut hx
  · exact hr
  · exact hb.2 x hx

theorem budget_endTc (a ch : Byte) (e : OutEvent) : (s.endTransfer (.tc a ch) e).Budget :=
  ⟨fun x hx => hb.1 x (mem_regRemove hx).1, hb.2⟩

theorem budget_endTm (a ch : Byte) (e : OutEvent) : (s.endTransfer (.tm a ch) e).Budget :=
  ⟨hb.1, fun x hx => hb.2 x (mem_regRemove hx).1⟩

theorem budget_tcRetry (r : TcRec) : (s.tcRetry r).Budget := by
  have hsent : (s.afterSend (tcRequestFrame s.address r)).Budget := (afterSend_sameTt s _).budget hb
  unfold State.tcRetry State.tcHandOff
  split
  · exact budget_endTc hb _ _ _
  · split
    · exact budget_putTc hsent (withinBudget_resend ‹_›)
    · exact budget_endTc hsent _ _ _

theorem budget_tmRetry (r : TmRec) : (s.tmRetry r).Budget := by
  have hsent : (s.afterSend (tmRequestFrame s.address r)).Budget := (afterSend_sameTt s _).budget hb
  unfold State.tmRetry State.tmHandOff
  split
  · exact budget_endTm hb _ _ _
  · split
    · exact budget_putTm hsent (withinBudget_resend ‹_›)
    · exact budget_endTm hsent _ _ _

variable (a ch : Byte)

theorem budget_tcRequestSent : (s.tcRequestSent a ch).Budget := by
  rw [tcRequestSent_eq]
  refine forRecord_ind (fun r hl htx => budget_putTc hb (withinBudget_confirmed ?_)) hb
  exact htx ▸ hb.1 r (regLookup_mem hl)

theorem budget_tmRequestSent : (s.tmRequestSent a ch).Budget := by
  rw [tmRequestSent_eq]
  refine forRecord_ind (fun r hl htx => budget_putTm hb (withinBudget_confirmed ?_)) hb
  exact htx ▸ hb.2 r (regLookup_mem hl)

theorem budget_tcRequestError : (s.tcRequestError a ch).Budget :=
  tcRequestError_eq s a ch ▸ forRecord_ind (fun _ _ _ => budget_endTc hb _ _ _) hb

theorem budget_tmRequestError : (s.tmRequestError a ch).Budget :=
  tmRequestError_eq s a ch ▸ forRecord_ind (fun _ _ _ => budget_endTm hb _ _ _) hb

theorem budget_tcOnAck : (s.tcOnAck a ch).Budget :=
  tcOnAck_eq s a ch ▸ forRecord_ind (fun _ _ _ => budget_endTc hb _ _ _) hb

theorem budget_tmOnAck (d : List Byte) : (s.tmOnAck a ch d).Budget :=
  tmOnAck_eq s a ch d ▸ forRecord_ind (fun _ _ _ => budget_endTm hb _ _ _) hb

theorem budget_tcOnNack : (s.tcOnNack a ch).Budget :=
  tcOnNack_eq s a ch ▸ forRecord_ind (fun _ _ _ => budget_tcRetry hb _) hb

theorem budget_tmOnNack : (s.tmOnNack a ch).Budget :=
  tmOnNack_eq s a ch ▸ forRecord_ind (fun _ _ _ => budget_tmRetry hb _) hb

theorem budget_wdFireTc : Ensures State.Budget (execWdFireTc a ch s) :=
  execWdFireTc_eq s a ch ▸ ensures_next (forRecord_ind (fun _ _ _ => budget_tcRetry hb _) hb)

theorem budget_wdFireTm : Ensures State.Budget (execWdFireTm a ch s) :=
  execWdFireTm_eq s a ch ▸ ensures_next (forRecord_ind (fun _ _ _ => budget_tmRetry hb _) hb)

theorem budget_unless {c : Prop} [Decidable c] {r : Result} (h : ¬c → Ensures State.Budget r) :
    Ensures State.Budget (if c then .next (s.giveBool false) else r) :=
  ensures_ite (fun _ => ensures_next (P := State.Budget) (t := s.giveBool false) hb) h

theorem budget_sendTc (d : List Byte) (retry : Byte) : Ensures State.Budget (execSendTc a ch d retry s) := by
  have hsent := (afterSend_sameTt s (tcRequestFrame s.address (newTcRec a ch d retry))).budget hb
  refine budget_unless hb fun _ => budget_unless hb fun _ => budget_unless hb fun _ => budget_unless hb fun _ => ?_
  exact ensures_ite (fun _ => ensures_next (budget_putTc hsent (withinBudget_zero retry _)))
    fun _ => ensures_next hsent

theorem budget_receiveTm (retry : Byte) : Ensures State.Budget (execReceiveTm a ch retry s) := by
  have hsent := (afterSend_sameTt s (tmRequestFrame s.address (newTmRec a ch retry))).budget hb
  refine budget_unless hb fun _ => budget_unless hb fun _ => budget_unless hb fun _ => ?_
  exact ensures_ite (fun _ => ensures_next (budget_putTm hsent (withinBudget_zero retry _)))
    fun _ => ensures_next hsent
end

theorem budget_of_noTt {s : State} (htc : s.tc = []) (htm : s.tm = []) : s.Budget := by
  simp [State.Budget, htc, htm]

/-! ### Every instruction -/

section
variable {s : State} (hb : s.Budget)
include hb

theorem budget_routeSent (f : LogicalFrame) : Ensures State.Budget (s.routeSent f) := by
  unfold State.routeSent
  cases TransferType.ofBits f.transferType with
  | timeSync | unsolicited => exact ensures_budget hb (leavesTt_next ((SameTt.refl s).emit _))
  | telecommand =>
    cases TtFrameType.ofBits (ttFt f.command) with
    | request => exact ensures_next (budget_tcRequestSent hb _ _)
    | ack | nack | reserved3 => exact budget_self hb
  | telemetry =>
    cases TtFrameType.ofBits (ttFt f.command) with
    | request => exact ensures_next (budget_tmRequestSent hb _ _)
    | ack | nack | reserved3 => exact budget_self hb
  | setBlock =>
    cases SbFrameType.ofBits (blkFt f.command) with
    | request => exact ensures_budget hb (leavesTt_next (sbRequestSent_sameTt s _))
    | transfer => exact ensures_budget hb (sbTransferSent_leavesTt s _ _)
    | status => exact ensures_budget hb (leavesTt_next (sbStatusSent_sameTt s _))
    | abort => exact ensures_budget hb (leavesTt_next (sbAbortSent_sameTt s _))
    | ack | nack | reserved5 | report => exact budget_self hb
  | getBlock =>
    cases GbFrameType.ofBits (blkFt f.command) with
    | request => exact ensures_budget hb (leavesTt_next (gbRequestSent_sameTt s _))
    | start => exact ensures_budget hb (leavesTt_next (gbStartSent_sameTt s _))
    | abort => exact ensures_budget hb (leavesTt_next (gbAbortSent_sameTt s _))
    | ack | nack | reserved1 | reserved5 | transfer => exact budget_self hb
  | reserved6 | reserved7 => exact budget_self hb

theorem budget_routeError (f : LogicalFrame) : (s.routeError f).Budget := by
  unfold State.routeError
  cases TransferType.ofBits f.transferType with
  | timeSync | unsolicited => exact ((SameTt.refl s).emit _).budget hb
  | telecommand =>
    cases TtFrameType.ofBits (ttFt f.command) with
    | request => exact budget_tcRequestError hb _ _
    | ack | nack | reserved3 => exact hb
  | telemetry =>
    cases TtFrameType.ofBits (ttFt f.command) with
    | request => exact budget_tmRequestError hb _ _
    | ack | nack | reserved3 => exact hb
  | setBlock =>
    cases SbFrameType.ofBits (blkFt f.command) with
    | request | transfer | status | abort => exact (sbFrameError_sameTt s _ _ _).budget hb
    | ack | nack | reserved5 | report => exact hb
  | getBlock =>
    cases GbFrameType.ofBits (blkFt f.command) with
    | request | start | abort => exact (gbFrameError_sameTt s _ _ _).budget hb
    | ack | nack | reserved1 | reserved5 | transfer => exact hb
  | reserved6 | reserved7 => exact hb

theorem budget_confirm {b : Bus} {c : CanFrame} {h : State → Result}
    (hh : ∀ u : State, u.Budget → Ensures State.Budget (h u)) : Ensures State.Budget (confirm b c s h) :=
  have hleft : (s.settle b c).Budget := SameTt.budget hb ⟨settle_tc s b c, settle_tm s b c⟩
  ensures_confirm hb hleft (hh _ hleft)

theorem budget_of_confirmed {i : Instr} {p : Port} {f : LogicalFrame} (hf : kindFrame i = some f) (hp : i.port? = some p)
    (hn : p.notice ≠ .received) : Ensures State.Budget (exec i s) := by
  rw [exec_of_confirmed hf hp hn, outgoingAt, atPort]
  split
  · exact budget_self hb
  · exact budget_confirm hb fun u hu => budget_routeSent hu f
  · exact budget_confirm hb fun u hu => ensures_next (budget_routeError hu f)

theorem budget_response {p : Port} {a : Byte} {frame : LogicalFrame} {h : State → Result} (hn : p.notice = .received)
    (hh : Ensures State.Budget (h s)) : Ensures State.Budget (responseAt p a frame h s) := by
  rw [responseAt, atPort_received hn]
  exact ensures_receiveLocal hb hh

theorem budget_of_received {i : Instr} {p : Port} (hk : (kindFrame i).isSome = true) (hp : i.port? = some p)
    (hn : p.notice = .received) : Ensures State.Budget (exec i s) := by
  cases i with
  | tcRequest | tcReservedFt3 | tmRequest | tmReservedFt3 | sbRequest | sbTransfer | sbAbort | sbReservedFt5 | sbStatus
  | gbRequest | gbReservedFt1 | gbAbort | gbReservedFt5 | gbStart | type6Reserved | type7Reserved =>
    obtain rfl := Option.some.inj hp
    simp only [exec_tcRequest, exec_tcReservedFt3, exec_tmRequest, exec_tmReservedFt3, exec_sbRequest, exec_sbTransfer,
      exec_sbAbort, exec_sbReservedFt5, exec_sbStatus, exec_gbRequest, exec_gbReservedFt1, exec_gbAbort,
      exec_gbReservedFt5, exec_gbStart, exec_type6Reserved, exec_type7Reserved, atPort_received hn]
    exact budget_self hb
  | tcAck q t f ch d =>
    obtain rfl := Option.some.inj hp
    rw [exec_tcAck]; exact budget_response hb hn (ensures_next (budget_tcOnAck hb f ch))
  | tcNack q t f ch d =>
    obtain rfl := Option.some.inj hp
    rw [exec_tcNack]; exact budget_response hb hn (ensures_next (budget_tcOnNack hb f ch))
  | tmAck q t f ch d =>
    obtain rfl := Option.some.inj hp
    rw [exec_tmAck]; exact budget_response hb hn (ensures_next (budget_tmOnAck hb f ch d))
  | tmNack q t f ch d =>
    obtain rfl := Option.some.inj hp
    rw [exec_tmNack]; exact budget_response hb hn (ensures_next (budget_tmOnNack hb f ch))
  | sbAck q t f n d =>
    obtain rfl := Option.some.inj hp
    rw [exec_sbAck]; exact budget_response hb hn (ensures_budget hb (sbOnAck_leavesTt s f n d))
  | sbNack q t f n d =>
    obtain rfl := Option.some.inj hp
    rw [exec_sbNack]; exact budget_response hb hn (ensures_budget hb (sbOnNack_leavesTt s f n d))
  | sbReport q t f done n d =>
    obtain rfl := Option.some.inj hp
    rw [exec_sbReport]; exact budget_response hb hn (ensures_budget hb (sbOnReport_leavesTt s f done d))
  | gbAck q t f n d =>
    obtain rfl := Option.some.inj hp
    rw [exec_gbAck]; exact budget_response hb hn (ensures_budget hb (leavesTt_next (gbOnAck_sameTt s f n d)))
  | gbNack q t f n d =>
    obtain rfl := Option.some.inj hp
    rw [exec_gbNack]; exact budget_response hb hn (ensures_budget hb (leavesTt_next (gbOnNack_sameTt s f n d)))
  | gbTransfer q t f n d =>
    obtain rfl := Option.some.inj hp
    rw [exec_gbTransfer]; exact budget_response hb hn (ensures_budget hb (gbOnTransfer_leavesTt s f n d))
  | unsol q t f ch d =>
    obtain rfl := Option.some.inj hp
    rw [exec_unsol, atPort_received hn]
    exact ensures_receiveLocal hb (ensures_budget hb (leavesTt_next ((SameTt.refl s).emit _)))
  | keepalive q f ch d =>
    obtain rfl := Option.some.inj hp
    rw [exec_keepalive, atPort_received hn]
    exact ensures_budget hb (keepaliveReceived_leavesTt s _ f ch d)
  | timesync q f d =>
    obtain rfl := Option.some.inj hp
    rw [exec_timesync, atPort_received hn]
    exact ensures_budget hb (timesyncReceived_leavesTt s _ f d)
  | _ => cases hk

/-- A frame kind at a port: by its handler when it is received, by the routing of its frame when it is confirmed. -/
theorem budget_of_kind {i : Instr} {p : Port} (hk : (kindFrame i).isSome = true) (hp : i.port? = some p) :
    Ensures State.Budget (exec i s) := by
  by_cases hn : p.notice = .received
  · exact budget_of_received hb hk hp hn
  · obtain ⟨f, hf⟩ := Option.isSome_iff_exists.1 hk
    exact budget_of_confirmed hb hf hp hn

/-- A received frame runs its kind, or nothing when it decodes to none (R291). -/
theorem budget_frameReceived (b : Bus) (c : CanFrame) : Ensures State.Budget (exec (.frameReceived b c) s) := by
  cases hdec : decode ⟨b, .received⟩ c with
  | error e => rw [exec_frameReceived_of_decode_error s hdec]; exact budget_self hb
  | ok i =>
    obtain ⟨-, -, hkind⟩ := decode_ok hdec
    obtain ⟨hport, -, mask, value, hrow, -⟩ := followsRow_of_decodeKind hkind
    rw [exec_frameReceived_of_decode s hdec]
    exact budget_of_kind hb (by rw [kindFrame_isSome, hrow]; rfl) hport

theorem exec_budget (i : Instr) : Ensures State.Budget (exec i s) := by
  cases i with
  | tcRequest | tcAck | tcNack | tcReservedFt3 | tmRequest | tmAck | tmNack | tmReservedFt3
  | sbRequest | sbTransfer | sbAck | sbAbort | sbNack | sbReservedFt5 | sbStatus | sbReport
  | gbRequest | gbReservedFt1 | gbAck | gbAbort | gbNack | gbReservedFt5 | gbStart | gbTransfer
  | unsol | keepalive | timesync | type6Reserved | type7Reserved => exact budget_of_kind hb rfl rfl
  | frameReceived b c => exact budget_frameReceived hb b c
  | frameSent b c => exact budget_confirm hb fun u hu => budget_routeSent hu _
  | sendError b c e => exact budget_confirm hb fun u hu => ensures_next (budget_routeError hu _)
  | start a ms cfg => exact ensures_budget hb (start_leavesTt s a ms cfg)
  | stop => exact ensures_ite (fun _ => ensures_next (budget_of_noTt rfl rfl)) fun _ => budget_self hb
  | canBusSwitch => exact ensures_ite (fun _ => ensures_next (budget_of_noTt rfl rfl)) fun _ => budget_self hb
  | getActiveBus | getAddress => exact ensures_budget hb (leavesTt_next ⟨rfl, rfl⟩)
  | sendTc a ch d retry => exact budget_sendTc hb a ch d retry
  | receiveTm a ch retry => exact budget_receiveTm hb a ch retry
  | sendBlock a v d retry ms reportRetry => exact ensures_budget hb (sendBlock_leavesTt s a v d retry ms reportRetry)
  | receiveBlock a v n retry startRetry => exact ensures_budget hb (receiveBlock_leavesTt s a v n retry startRetry)
  | sendTimeSync time => exact ensures_budget hb (sendTimeSync_leavesTt s time)
  | sendUnsolicited a ch d => exact ensures_budget hb (sendUnsolicited_leavesTt s a ch d)
  | wdFireTc a ch => exact budget_wdFireTc hb a ch
  | wdFireTm a ch => exact budget_wdFireTm hb a ch
  | wdFireSb a => exact ensures_budget hb (wdFireSb_leavesTt s a)
  | wdFireGb a => exact ensures_budget hb (wdFireGb_leavesTt s a)
  | rdFireSb a => exact ensures_budget hb (rdFireSb_leavesTt s a)
end

/-- Settles O34: every instruction keeps the budget, which does not speak of the list of posted events. -/
theorem stepKeepsTheRetryBudget : Obligations.StepKeepsTheRetryBudget := by
  intro s t hb h
  cases hp : s.pending with
  | nil => cases (step_of_pending_nil hp).symm.trans h; exact hb
  | cons i rest =>
    rw [step_of_pending_cons hp] at h
    have hu : State.Budget { s with pending := rest } := hb
    exact ensures_ite (fun _ => exec_budget hu i) (fun _ => by rintro _ ⟨⟩) t h

end Sys2Proof.Machine
end

section
/-! PROOFS. Set block (R380 to R426): a valid SendBlock, confirmations, responses and the two timers of a record.

The handlers have the shape `forRecord`. Where the action on a record runs a checked primitive, its result is a next state
by the invariant, and `result_forRecord` carries that through the shape. After a confirmed TRANSFER and after a REPORT that
keeps the transfer going the engine does the same thing, `State.sbProceed`: it sends the lowest frame that is not marked,
or, with all marked, waits for its report delay. -/

namespace Sys2Proof.Machine

/-! ### Handlers with a checked action -/

section
variable {ρ : Type} {found : Option ρ} {c : ρ → Prop} [DecidablePred c] {Q : ρ → State → Prop}

/-- `next_forRecord` for an action that is a result of its own. -/
theorem result_forRecord {res : Result} {g : ρ → Result} {u : State} (hres : res = forRecord found c g (.next u))
    (hQ : ∀ r, found = some r → c r → ∃ t, g r = .next t ∧ Q r t) :
    ∃ t, res = .next t ∧ (∀ r, found = some r → c r → Q r t) ∧ ((∀ r, found = some r → ¬c r) → t = u) := by
  by_cases h : ∃ r, found = some r ∧ c r
  · obtain ⟨r, hf, hc⟩ := h
    obtain ⟨t, hg, hq⟩ := hQ r hf hc
    refine ⟨t, by rw [hres, forRecord_of_met hf hc, hg], fun r' hf' _ => ?_, fun hno => absurd hc (hno r hf)⟩
    cases hf.symm.trans hf'
    exact hq
  · exact ⟨u, by rw [hres, forRecord_of_unmet fun r hf hc => h ⟨r, hf, hc⟩], fun r hf hc => absurd ⟨r, hf, hc⟩ h,
      fun _ => rfl⟩

/-- A confirmation that the engine hears runs its handler on the state without the confirmed frame, which holds the same
records. -/
theorem confirmed_forRecord {s : State} {b : Bus} {f : CanFrame} {a : Byte} {c : SbRec → Prop} [DecidablePred c]
    {Q : SbRec → State → Prop} {h : State → State} {g : State → SbRec → State} (hb : s.hears b)
    (hh : ∀ u : State, h u = forRecord (u.lookupSb a) c (g u) u)
    (hQ : ∀ r, s.lookupSb a = some r → Q r (g (s.settle b f) r)) :
    ∃ t, confirm b f s (fun u => .next (h u)) = .next t ∧ (∀ r, s.lookupSb a = some r → c r → Q r t) ∧
      ((∀ r, s.lookupSb a = some r → ¬c r) → t = s.settle b f) :=
  next_forRecord (by rw [confirm_hears s hb, hh, lookupSb_settle]) hQ
end

/-! ### Confirmed REQUEST, STATUS and ABORT: R382, R389, R399, R407 -/

section
variable {s : State} {b : Bus} {f : CanFrame} {t : Byte} {tx : SbTx}

theorem confirmed_awaits {h : State → State} {rx : BlkRx} (hb : s.hears b)
    (hh : ∀ u : State, h u = forRecord (u.lookupSb t) (·.tx = tx) (fun r => u.putSb (r.awaiting u.timeoutMs rx)) u) :
    ∃ t', confirm b f s (fun u => .next (h u)) = .next t' ∧
      (∀ r, s.lookupSb t = some r → r.tx = tx →
        ChangesSb (s.settle b f) t' t (some (r.awaiting s.timeoutMs rx)) []) ∧
      ((∀ r, s.lookupSb t = some r → r.tx ≠ tx) → t' = s.settle b f) := by
  refine confirmed_forRecord hb hh fun r hl => ?_
  obtain rfl := lookupSb_key hl
  rw [settle_timeoutMs]
  exact putSb_changes _ (r.awaiting s.timeoutMs rx)

theorem confirmed_fails {kind : SbKind} (hb : s.hears b) :
    ∃ t', confirm b f s (fun u => .next (u.sbFrameError t tx kind)) = .next t' ∧
      (∀ r, s.lookupSb t = some r → r.tx = tx →
        ChangesSb (s.settle b f) t' t none [.event (.sendBlockFailed t kind)]) ∧
      ((∀ r, s.lookupSb t = some r → r.tx ≠ tx) → t' = s.settle b f) := by
  refine confirmed_forRecord hb (sbFrameError_eq · t tx kind) fun r hl => ?_
  obtain rfl := lookupSb_key hl
  exact failSb_changes _ r kind
end

/-- Settles O35: each of the three kinds runs its handler behind the gate `confirm`. -/
theorem setBlockConfirmed : Obligations.SetBlockConfirmed := fun _ _ t _ _ _ hb =>
  ⟨confirmed_awaits hb (sbRequestSent_eq · t), confirmed_awaits hb (sbStatusSent_eq · t),
    confirmed_awaits hb (sbAbortSent_eq · t)⟩

/-- Settles O42: each kind runs `State.sbFrameError` with its own sending state and error kind; none reads the reason. -/
theorem setBlockSendError : Obligations.SetBlockSendError := fun _ _ _ _ _ _ _ hb =>
  ⟨confirmed_fails hb, confirmed_fails hb, confirmed_fails hb, confirmed_fails hb⟩

/-! ### The next frame, or the report delay: R386, R387, R397, R398 -/

/-- Send the lowest frame that is not marked; with all marked, arm the report delay. -/
def State.sbProceed (s : State) (r : SbRec) : Option Nat → Result
  | some k => s.sbSendTransfer r k
  | none => .next (s.putSb { r with rd := .armed r.reportDelayMs, tx := .waitingForSendStatusRequest })

/-- What `State.sbProceed` does to the state, by the record's bitmap. -/
def ProceedsSb (s t : State) (r : SbRec) : Prop :=
  (∀ k, LowestClear r.bitmap r.blocks.toNat k →
    HandsOffSb s t r (transferFrame s.address r k) .sendingData .sendDataFailed) ∧
  (FullBitmap r.bitmap r.blocks.toNat →
    ChangesSb s t r.address (some { r with rd := .armed r.reportDelayMs, tx := .waitingForSendStatusRequest }) [])

theorem not_fullBitmap_of_lowestClear {b : List Byte} {n k : Nat} (h : LowestClear b n k) : ¬FullBitmap b n := by
  obtain ⟨hk, hclear, -⟩ := h
  exact fun hfull => Bool.false_ne_true (hclear.symm.trans (hfull k hk))

/-- Inside the range the search for a clear bit has an answer (R269). -/
theorem firstClear_isOk {b : List Byte} {n : Nat} (hn : n ≤ 8 * b.length) : ∃ missing, firstClear b n = .ok missing :=
  ⟨_, if_pos hn⟩

theorem sbProceed_proceeds {s : State} {r : SbRec} {missing : Option Nat} (hn : r.blocks.toNat ≤ 8 * r.bitmap.length)
    (hd : ∀ k < r.blocks.toNat, 8 * k ≤ r.data.length) (hm : firstClear r.bitmap r.blocks.toNat = .ok missing) :
    ∃ t, s.sbProceed r missing = .next t ∧ ProceedsSb s t r := by
  cases missing with
  | none =>
    have hfull := (firstClear_none_iff hn).1 hm
    exact ⟨_, rfl, fun k hk => absurd hfull (not_fullBitmap_of_lowestClear hk), fun _ => putSb_changes s _⟩
  | some k =>
    have hlow := (firstClear_some_iff hn).1 hm
    obtain ⟨t, ht, hsent⟩ := sbSendTransfer_handsOff s (hd k hlow.1)
    refine ⟨t, ht, fun j hj => ?_, fun hfull => absurd hfull (not_fullBitmap_of_lowestClear hlow)⟩
    cases hm.symm.trans ((firstClear_some_iff hn).2 hj)
    exact hsent

/-! ### Confirmed TRANSFER: R386, R387 -/

/-- Mark frame `k` of the record as sent, and go on. -/
def State.sbMarkSent (s : State) (k : Nat) (r : SbRec) : Result :=
  checked (setBit r.bitmap k) fun bitmap =>
    checked (firstClear bitmap r.blocks.toNat) (s.sbProceed { r with bitmap := bitmap })

theorem sbTransferSent_eq (s : State) (a : Byte) (q : Seq) : s.sbTransferSent a q =
    forRecord (s.lookupSb a) (fun r => r.tx = .sendingData ∧ q.toNat < r.blocks.toNat)
      (s.sbMarkSent q.toNat) (.next s) := by
  unfold State.sbTransferSent; cases s.lookupSb a <;> rfl

/-- Marking a frame of a well-formed record stays inside its bitmap, so the transfer proceeds. -/
theorem sbMarkSent_proceeds (s : State) {r : SbRec} {k : Nat} (hw : r.WF) (hk : k < r.blocks.toNat) :
    ∃ t, s.sbMarkSent k r = .next t ∧ ProceedsSb s t { r with bitmap := withBitSet r.bitmap k } := by
  have hle := sbWF_le hw
  have hmarked : r.blocks.toNat ≤ 8 * (withBitSet r.bitmap k).length := by rwa [withBitSet_length]
  obtain ⟨missing, hm⟩ := firstClear_isOk hmarked
  rw [State.sbMarkSent, setBit_ok (Nat.lt_of_lt_of_le hk hle)]
  simp only [checked, hm]
  exact sbProceed_proceeds hmarked (fun _ hj => sbWF_inside hw hj) hm

/-- Settles O36: behind the gate `confirm` the frame's bit is set and the transfer proceeds. -/
theorem setBlockTransferConfirmed : Obligations.SetBlockTransferConfirmed := by
  intro s b t f seq d hi hb
  have hres : exec (.sbTransfer ⟨b, .sent⟩ t f seq d) s = _ :=
    (confirm_hears s (h := (·.sbTransferSent t seq)) hb).trans (sbTransferSent_eq _ t seq)
  rw [lookupSb_settle] at hres
  obtain ⟨t', hnext, hmet, hunmet⟩ := result_forRecord hres fun r hl ⟨_, hseq⟩ =>
    sbMarkSent_proceeds _ (inv_sbWF hi hl) hseq
  refine ⟨t', hnext, fun r hl htx hseq => ?_, fun h => hunmet fun r hl ⟨htx, hseq⟩ => Nat.not_le.2 hseq (h r hl htx)⟩
  have hproceeds := hmet r hl ⟨htx, hseq⟩
  rw [ProceedsSb, settle_address] at hproceeds
  obtain rfl := lookupSb_key hl
  exact hproceeds

/-! ### The report delay: R388 -/

theorem execRdFireSb_eq (s : State) (a : Byte) : execRdFireSb a s = .next (forRecord (s.lookupSb a)
    (fun r => s.running = true ∧ r.rd.isArmed = true) (fun r => s.sbSendStatus { r with rd := .idle }) s) := by
  unfold execRdFireSb forRecord
  cases s.lookupSb a with
  | none => rfl
  | some r => simp only [Bool.and_eq_true, apply_ite Host.Outcome.next]

/-- Settles O37: while the engine runs, the test of a report-delay fire is that the timer is armed. -/
theorem setBlockReportDelay : Obligations.SetBlockReportDelay := by
  intro s a hr
  obtain ⟨t, hnext, harmed, hidle⟩ := next_forRecord (execRdFireSb_eq s a) (Q := fun (r : SbRec) t =>
    HandsOffSb s t { r with rd := .idle } (sbStatusFrame s.address r) .sendingStatusRequest .sendStatusRequestFailed)
    fun r _ => sbHandOff_handsOff s { r with rd := .idle } _ _ _
  refine ⟨t, hnext, fun r hl hrd => ?_, fun h => hidle fun r hl hc => not_isArmed_of_idle (h r hl) hc.2⟩
  have hsent := harmed r hl ⟨hr, hrd⟩
  obtain rfl := lookupSb_key hl
  exact hsent

/-! ### Valid answers: R221, R226 -/

/-- The record waits for the answer to its REQUEST, and an ACK's content is that answer. -/
abbrev SbRec.RequestAcked (r : SbRec) (n : Seq) (d : List Byte) : Prop :=
  r.rx = .waitingForRequestAck ∧ n.toNat + 1 = r.blocks.toNat ∧ d = r.start

/-- The record waits for the answer to its ABORT, and the content of an ACK or a NACK is that answer. -/
abbrev SbRec.AbortAnswered (r : SbRec) (n : Seq) (d : List Byte) : Prop := r.rx = .waitingForAbortAck ∧ n = 0 ∧ d = []

section
variable (n : Seq) (d : List Byte)

theorem requestAckValid_iff (blocks : Byte) (start : List Byte) :
    requestAckValid blocks start n d = true ↔ n.toNat + 1 = blocks.toNat ∧ d = start := by simp [requestAckValid]

theorem abortAckValid_iff : abortAckValid n d = true ↔ n = 0 ∧ d = [] := by simp [abortAckValid]
end

/-! ### ACK: R383, R384, R400 -/

/-- What a valid ACK makes of `r`, by the state it meets. -/
def State.sbAcked (s : State) (r : SbRec) : BlkRx → Result
  | .waitingForRequestAck => s.sbSendTransfer { r with wd := .idle, rx := .idle } 0
  | .waitingForAbortAck =>
    checked (successPath r) fun ok => .next (if ok then s.completeSb r else s.failSb r .maxReportRetriesReached)
  | .idle | .waitingForData => .next s

section
variable (s : State) (a : Byte) (n : Seq) (d : List Byte)

theorem sbOnAck_eq : s.sbOnAck a n d =
    forRecord (s.lookupSb a) (fun r => r.RequestAcked n d ∨ r.AbortAnswered n d) (fun r => s.sbAcked r r.rx)
      (.next s) := by
  unfold State.sbOnAck forRecord
  cases s.lookupSb a with
  | none => rfl
  | some r =>
    cases hrx : r.rx <;>
      simp [State.sbAcked, SbRec.RequestAcked, SbRec.AbortAnswered, hrx, requestAckValid_iff, abortAckValid_iff]

theorem sbAcked_acks {r : SbRec} (hn : r.blocks.toNat ≤ 8 * r.bitmap.length) (rx : BlkRx) :
    ∃ t, s.sbAcked r rx = .next t ∧
      (rx = .waitingForRequestAck → HandsOffSb s t { r with wd := .idle, rx := .idle } (transferFrame s.address r 0)
        .sendingData .sendDataFailed) ∧
      (rx = .waitingForAbortAck → ChangesSb s t r.address none
        [.event (if r.succeeded then .sendBlockCompleted r.address
          else .sendBlockFailed r.address .maxReportRetriesReached)]) := by
  cases rx with
  | waitingForRequestAck =>
    obtain ⟨t, ht, hsent⟩ := sbSendTransfer_handsOff s (r := { r with wd := .idle, rx := .idle }) (k := 0) (Nat.zero_le _)
    exact ⟨t, ht, fun _ => hsent, by simp⟩
  | waitingForAbortAck =>
    simp only [State.sbAcked, successPath_ok hn, checked, decide_eq_true_eq]
    refine ⟨_, rfl, by simp, fun _ => ?_⟩
    split
    · exact endTransfer_sb s _ _
    · exact failSb_changes s r _
  | idle => exact ⟨s, rfl, by simp, by simp⟩
  | waitingForData => exact ⟨s, rfl, by simp, by simp⟩
end

/-- Settles O38: behind the gate `receiveLocal`; the two valid answers belong to different `rx` states. -/
theorem setBlockAck : Obligations.SetBlockAck := by
  intro s b f n d hi hb
  have hres : exec (.sbAck ⟨b, .received⟩ s.address f n d) s = _ :=
    (receiveLocal_hears s (h := (·.sbOnAck f n d)) hb rfl).trans (sbOnAck_eq s f n d)
  obtain ⟨t, hnext, hmet, hunmet⟩ := result_forRecord hres fun r hl _ => sbAcked_acks s (sbWF_le (inv_sbWF hi hl)) _
  refine ⟨t, hnext, fun r hl hrx hn hd => ?_, fun r hl hrx hn hd => ?_, fun h => hunmet fun r hl => not_or.2 (h r hl)⟩
  · obtain ⟨hsent, -⟩ := hmet r hl (.inl ⟨hrx, hn, hd⟩)
    exact hsent hrx
  · obtain ⟨-, hended⟩ := hmet r hl (.inr ⟨hrx, hn, hd⟩)
    obtain rfl := lookupSb_key hl
    exact hended hrx

/-! ### NACK: R385, R390, R402 -/

/-- What a NACK, valid where the state asks for that, makes of `r`, by the state it meets. -/
def State.sbNacked (s : State) (r : SbRec) : BlkRx → Result
  | .waitingForRequestAck => .next (s.sbRetryRequest { r with wd := .idle, rx := .idle })
  | .waitingForData => .next (s.sbRetryStatus { r with wd := .idle, rx := .idle })
  | .waitingForAbortAck =>
    checked (successPath r) fun ok => .next (s.failSb r (if ok then .abortNackReceived else .maxReportRetriesReached))
  | .idle => .next s

section
variable (s : State) (a : Byte) (n : Seq) (d : List Byte)

theorem sbOnNack_eq : s.sbOnNack a n d =
    forRecord (s.lookupSb a) (fun r => r.rx = .waitingForRequestAck ∨ r.rx = .waitingForData ∨ r.AbortAnswered n d)
      (fun r => s.sbNacked r r.rx) (.next s) := by
  unfold State.sbOnNack forRecord
  cases s.lookupSb a with
  | none => rfl
  | some r => cases hrx : r.rx <;> simp [State.sbNacked, SbRec.AbortAnswered, hrx, abortAckValid_iff]

theorem sbNacked_nacks {r : SbRec} (hn : r.blocks.toNat ≤ 8 * r.bitmap.length) (rx : BlkRx) :
    ∃ t, s.sbNacked r rx = .next t ∧
      (rx = .waitingForRequestAck → RetriesSbRequest s t { r with wd := .idle, rx := .idle }) ∧
      (rx = .waitingForData → RetriesSbStatus s t { r with wd := .idle, rx := .idle }) ∧
      (rx = .waitingForAbortAck →
        FailsSb s t r (if r.succeeded then .abortNackReceived else .maxReportRetriesReached)) := by
  cases rx with
  | waitingForRequestAck => exact ⟨_, rfl, fun _ => sbRetryRequest_retries s _, by simp, by simp⟩
  | waitingForData => exact ⟨_, rfl, by simp, fun _ => sbRetryStatus_retries s _, by simp⟩
  | waitingForAbortAck =>
    simp only [State.sbNacked, successPath_ok hn, checked, decide_eq_true_eq]
    exact ⟨_, rfl, by simp, by simp, fun _ => failSb_changes s r _⟩
  | idle => exact ⟨s, rfl, by simp, by simp, by simp⟩
end

/-- Settles O39: behind the gate `receiveLocal`; only the state that waits for an ABORT-ACK reads a NACK's content. -/
theorem setBlockNack : Obligations.SetBlockNack := by
  intro s b f n d hi hb
  have hres : exec (.sbNack ⟨b, .received⟩ s.address f n d) s = _ :=
    (receiveLocal_hears s (h := (·.sbOnNack f n d)) hb rfl).trans (sbOnNack_eq s f n d)
  obtain ⟨t, hnext, hmet, hunmet⟩ := result_forRecord hres fun r hl _ => sbNacked_nacks s (sbWF_le (inv_sbWF hi hl)) _
  refine ⟨t, hnext, fun r hl hrx => ?_, fun r hl hrx => ?_, fun r hl hrx hn hd => ?_, fun h => hunmet fun r hl => ?_⟩
  · obtain ⟨hrequest, -, -⟩ := hmet r hl (.inl hrx)
    exact hrequest hrx
  · obtain ⟨-, hstatus, -⟩ := hmet r hl (.inr (.inl hrx))
    exact hstatus hrx
  · obtain ⟨-, -, hended⟩ := hmet r hl (.inr (.inr ⟨hrx, hn, hd⟩))
    exact hended hrx
  · obtain hrx | ⟨hrx, hinvalid⟩ := h r hl
    · simp [hrx]
    · rintro (h | h | ⟨-, hvalid⟩)
      · exact BlkRx.noConfusion (hrx.symm.trans h)
      · exact BlkRx.noConfusion (hrx.symm.trans h)
      · exact hinvalid hvalid

/-! ### REPORT: R391 to R398 -/

theorem sbOnReport_eq (s : State) (a : Byte) (done : Bool) (d : List Byte) : s.sbOnReport a done d =
    forRecord (s.lookupSb a) (fun r => r.rx = .waitingForData ∧ isValid d r.blocks.toNat = true ∧
        (done = true → FullBitmap d r.blocks.toNat))
      (fun r => s.sbReportBranch { r with wd := .idle, rx := .idle, bitmap := d, done := done }) (.next s) := by
  unfold State.sbOnReport forRecord
  cases s.lookupSb a with
  | none => rfl
  | some r => simp only [reportValid_ok, checked, decide_eq_true_eq, ite_and]

section
variable {s : State} {r : SbRec}

/-- R395 and R396: done, or with its report budget spent, the transfer ends with ABORT. -/
theorem sbReportBranch_abort (hn : r.blocks.toNat ≤ 8 * r.bitmap.length)
    (h : r.succeeded ∨ r.maxReportRetries.toNat < r.reportRetryCount.toNat) :
    s.sbReportBranch r = .next (s.sbSendAbort r) := by
  obtain ⟨missing, hm⟩ := firstClear_isOk hn
  simp only [State.sbReportBranch, hm, checked]
  obtain ⟨hdone, hfull⟩ | hspent := h
  · cases hm.symm.trans ((firstClear_none_iff hn).2 hfull)
    exact if_pos (by simp [hdone])
  · rw [if_pos (BitVec.lt_def.2 hspent), ite_self]

/-- R397 and R398: otherwise the REPORT is counted and the transfer proceeds. -/
theorem sbReportBranch_proceed {missing : Option Nat} (hm : firstClear r.bitmap r.blocks.toNat = .ok missing)
    (hdone : r.done = false) (hbudget : ¬r.maxReportRetries.toNat < r.reportRetryCount.toNat) :
    s.sbReportBranch r = s.sbProceed { r with reportRetryCount := r.reportRetryCount + 1 } missing := by
  simp only [State.sbReportBranch, hm, checked, hdone, Bool.false_and, Bool.false_eq_true, if_false]
  rw [if_neg fun h => hbudget (BitVec.lt_def.1 h)]
  cases missing <;> rfl

/-- The branches of a valid REPORT, in the spec's order. -/
theorem sbReportBranch_next (hn : r.blocks.toNat ≤ 8 * r.bitmap.length)
    (hd : ∀ k < r.blocks.toNat, 8 * k ≤ r.data.length) (hv : r.done = true → FullBitmap r.bitmap r.blocks.toNat) :
    ∃ t, s.sbReportBranch r = .next t ∧
      if r.done = true ∨ r.maxReportRetries.toNat < r.reportRetryCount.toNat then
        HandsOffSb s t r (sbAbortFrame s.address r) .sendingAbort .sendAbortFailed
      else ProceedsSb s t { r with reportRetryCount := r.reportRetryCount + 1 } := by
  by_cases h : r.done = true ∨ r.maxReportRetries.toNat < r.reportRetryCount.toNat
  · simp only [if_pos h]
    exact ⟨_, sbReportBranch_abort hn (h.imp_left fun hdone => ⟨hdone, hv hdone⟩), sbHandOff_handsOff s r _ _ _⟩
  · simp only [if_neg h]
    obtain ⟨hdone, hbudget⟩ := not_or.1 h
    obtain ⟨missing, hm⟩ := firstClear_isOk hn
    rw [sbReportBranch_proceed hm (by simpa using hdone) hbudget]
    exact sbProceed_proceeds hn hd hm
end

/-- Settles O40: the branches run on the record with the reported bitmap, which is valid for its blocks. -/
theorem setBlockReport : Obligations.SetBlockReport := by
  intro s b f done n d hi hb
  have hres : exec (.sbReport ⟨b, .received⟩ s.address f done n d) s = _ :=
    (receiveLocal_hears s (h := (·.sbOnReport f done d)) hb rfl).trans (sbOnReport_eq s f done d)
  obtain ⟨t, hnext, hvalid, hinvalid⟩ := result_forRecord hres fun r hl ⟨_, hvalid, hfull⟩ =>
    sbReportBranch_next (r := { r with wd := .idle, rx := .idle, bitmap := d, done := done }) (isValid_le hvalid)
      (fun _ hk => sbWF_inside (inv_sbWF hi hl) hk) hfull
  refine ⟨t, hnext, fun r hl hv => ?_, hinvalid⟩
  have hbranch := hvalid r hl hv
  obtain rfl := lookupSb_key hl
  by_cases h : done = true ∨ r.maxReportRetries.toNat < r.reportRetryCount.toNat
  · rw [if_pos h] at hbranch ⊢
    exact hbranch
  · rw [if_neg h] at hbranch ⊢
    obtain ⟨hsent, hwaits⟩ := hbranch
    exact ⟨hwaits, hsent⟩

/-! ### The watchdog: R420, R421 -/

/-- The retry policy that a watchdog runs on `r` by the state the record waited in. -/
def State.sbWatchdogRetry (s : State) (r : SbRec) : WatchdogDispatch → BlkRx → Result
  | .literal, _ => .next (s.sbRetryStatus r)
  | .perState, .waitingForRequestAck => .next (s.sbRetryRequest r)
  | .perState, .waitingForData => .next (s.sbRetryStatus r)
  | .perState, .waitingForAbortAck => s.sbRetryAbort r
  | .perState, .idle => s.sbRetryAbort r

theorem execWdFireSb_eq (s : State) (a : Byte) : execWdFireSb a s =
    forRecord (s.lookupSb a) (fun r => s.running = true ∧ r.wd.isArmed = true)
      (fun r => s.sbWatchdogRetry { r with wd := .idle, rx := .idle } s.params.watchdogDispatch r.rx) (.next s) := by
  unfold execWdFireSb forRecord
  cases s.lookupSb a with
  | none => rfl
  | some r =>
    simp only [Bool.and_eq_true]
    cases s.params.watchdogDispatch
    · cases r.rx <;> rfl
    · rfl

theorem sbWatchdogRetry_retries (s : State) {r : SbRec} (hn : r.blocks.toNat ≤ 8 * r.bitmap.length)
    (w : WatchdogDispatch) (rx : BlkRx) : ∃ t, s.sbWatchdogRetry r w rx = .next t ∧
      (w = .literal → RetriesSbStatus s t r) ∧
      (w = .perState → (rx = .waitingForRequestAck → RetriesSbRequest s t r) ∧
        (rx = .waitingForData → RetriesSbStatus s t r) ∧ (rx = .waitingForAbortAck → RetriesSbAbort s t r)) := by
  have hstatus := sbRetryStatus_retries s r
  cases w with
  | literal => exact ⟨_, rfl, fun _ => hstatus, by simp⟩
  | perState =>
    obtain ⟨t, ht, habort⟩ := sbRetryAbort_retries s hn
    cases rx with
    | waitingForRequestAck => exact ⟨_, rfl, by simp, by simp [sbRetryRequest_retries s r]⟩
    | waitingForData => exact ⟨_, rfl, by simp, by simp [hstatus]⟩
    | waitingForAbortAck => exact ⟨t, ht, by simp, by simp [habort]⟩
    | idle => exact ⟨t, ht, by simp, by simp⟩

/-- Settles O41: while the engine runs, the test of a watchdog fire is that the watchdog is armed. -/
theorem setBlockWatchdog : Obligations.SetBlockWatchdog := by
  intro s a hi hr
  obtain ⟨t, hnext, harmed, hidle⟩ := result_forRecord (execWdFireSb_eq s a) fun r hl _ =>
    sbWatchdogRetry_retries s (r := { r with wd := .idle, rx := .idle }) (sbWF_le (r := r) (inv_sbWF hi hl)) _ _
  exact ⟨t, hnext, fun r hl hw => harmed r hl ⟨hr, hw⟩,
    fun h => hidle fun r hl hc => not_isArmed_of_idle (h r hl) hc.2⟩

/-! ### A valid SendBlock: R381 -/

section
variable {u t : State} {a : Byte} {ev : List HostOut}

theorem ChangesSb.giveBool {r : Option SbRec} (h : ChangesSb u t a r ev) (v : Bool) :
    ChangesSb u (t.giveBool v) a r (ev ++ [.result (.bool v)]) := by
  obtain ⟨hself, hother, heq⟩ := h
  refine ⟨hself, hother, ?_⟩
  rw [heq]
  simp [State.giveBool, State.give]

theorem emit_changesSb (e : OutEvent) (h : u.lookupSb a = none) : ChangesSb u (u.emit e) a none [.event e] :=
  ⟨h, fun _ _ => rfl, rfl⟩
end

/-- The REQUEST's number is the count of frames minus one, of 1 to 64 frames (R220, R241). -/
theorem requestNum_sbBlocks {n : Nat} (h1 : 1 ≤ n) (h512 : n ≤ 512) :
    requestNum (BitVec.ofNat 8 (sbBlocks n)) = BitVec.ofNat 6 (sbBlocks n - 1) := by
  have hblocks := toNat_sbBlocks h512
  have hrange : 1 ≤ sbBlocks n ∧ sbBlocks n ≤ 64 := by unfold sbBlocks ceilDiv8; omega
  refine BitVec.eq_of_toNat_eq ?_
  rw [requestNum_toNat (by omega) (by omega), hblocks, BitVec.toNat_ofNat]
  omega

/-- A valid SendBlock passes every test of R380 and offers its REQUEST to the driver. -/
theorem exec_sendBlock_valid {s : State} {addr : Byte} {d : List Byte} (v : Word64) (retry : Byte) (ms : Word32)
    (reportRetry : Byte) (hr : s.running = true) (ha : Unicast addr) (hl : s.lookupSb addr = none)
    (hd : 1 ≤ d.length ∧ d.length ≤ 512) : exec (.sendBlock addr v d retry ms reportRetry) s =
      let u := s.afterSend (sbFrame .request addr s.address false (BitVec.ofNat 6 (sbBlocks d.length - 1)) (encodeStart v))
      if s.accepts then .next ((u.putSb (newSbRec addr v d retry ms reportRetry)).giveBool true)
      else .next ((u.emit (.sendBlockFailed addr .sendRequestFailed)).giveBool false) := by
  have hd' : ¬(d.length < 1 ∨ d.length > 512) := by omega
  simp only [exec, execSendBlock, hr, isBroadcast_of_unicast ha, hl, hd', Option.isSome_none, Bool.true_eq_false,
    Bool.false_eq_true, if_false, ← requestNum_sbBlocks hd.1 hd.2]
  rfl

/-- Settles O25: the driver's answer decides between the new record and the failure event, each with its result. -/
theorem sendBlockStarts : Obligations.SendBlockStarts := by
  intro s addr retry reportRetry start d delay hr h0 h1 hl hlen1 hlen512
  rw [exec_sendBlock_valid start retry delay reportRetry hr ⟨h0, h1⟩ hl ⟨hlen1, hlen512⟩]
  have hbits := bitAt_bmZero (sbBlocks d.length)
  by_cases hacc : s.accepts = true
  · simp only [if_pos hacc]
    exact ⟨_, _, rfl, bmZero_length _, hbits, toNat_sbBlocks hlen512,
      (putSb_changes _ (newSbRec addr start d retry delay reportRetry)).giveBool true⟩
  · simp only [if_neg hacc]
    exact ⟨_, _, rfl, bmZero_length _, hbits, toNat_sbBlocks hlen512,
      (emit_changesSb _ (by rwa [lookupSb_afterSend])).giveBool false⟩

end Sys2Proof.Machine
end

section
/-! PROOFS. Get block (R440 to R477): a valid ReceiveBlock, confirmations, responses and the watchdog of a record.

The handlers have the shape `forRecord`. Of the frames only a TRANSFER runs checked primitives; by the invariant a frame
number below the record's `blocks` lies inside its bitmap and its buffer, so none of them faults. -/

namespace Sys2Proof.Machine

/-! ### The state a handler leaves -/

/-- An instruction that runs a handler leaves the action's own state for a record that meets the test. -/
theorem next_forRecord_eq {ρ : Type} {found : Option ρ} {c : ρ → Prop} [DecidablePred c] {res : Result} {g : ρ → State}
    {u : State} (hres : res = .next (forRecord found c g u)) :
    ∃ t, res = .next t ∧ (∀ r, found = some r → c r → t = g r) ∧ ((∀ r, found = some r → ¬c r) → t = u) :=
  next_forRecord (Q := fun r t => t = g r) hres fun _ _ => rfl

/-! ### Confirmed REQUEST, START and ABORT, and their send errors: R442, R445, R469, R474 -/

section
variable {s : State} {b : Bus} {f : CanFrame} {t : Byte} {tx : GbTx}

/-- The state without the confirmed frame holds the same GB records. -/
theorem confirmedGb_forRecord {c : GbRec → Prop} [DecidablePred c] {Q : GbRec → State → Prop} {h : State → State}
    {g : State → GbRec → State} (hb : s.hears b) (hh : ∀ u : State, h u = forRecord (u.lookupGb t) c (g u) u)
    (hQ : ∀ r, s.lookupGb t = some r → Q r (g (s.settle b f) r)) :
    ∃ t', confirm b f s (fun u => .next (h u)) = .next t' ∧ (∀ r, s.lookupGb t = some r → c r → Q r t') ∧
      ((∀ r, s.lookupGb t = some r → ¬c r) → t' = s.settle b f) :=
  next_forRecord (by rw [confirm_hears s hb, hh, lookupGb_settle]) hQ

theorem confirmedGb_waits {h : State → State} {after : GbRec → GbRec} (hb : s.hears b)
    (hh : ∀ u : State, h u = forRecord (u.lookupGb t) (·.tx = tx)
      (fun r => u.putGb { after r with wd := .armed u.timeoutMs, tx := .idle }) u)
    (ha : ∀ r, (after r).address = r.address) :
    ∃ t', confirm b f s (fun u => .next (h u)) = .next t' ∧
      (∀ r, s.lookupGb t = some r → r.tx = tx →
        ChangesGb (s.settle b f) t' t (some { after r with wd := .armed s.timeoutMs, tx := .idle }) []) ∧
      ((∀ r, s.lookupGb t = some r → r.tx ≠ tx) → t' = s.settle b f) := by
  refine confirmedGb_forRecord hb hh fun r hl => ?_
  obtain rfl := lookupGb_key hl
  rw [settle_timeoutMs, ← ha r]
  exact putGb_changes _ { after r with wd := .armed s.timeoutMs, tx := .idle }

theorem confirmedGb_fails {kind : GbKind} (hb : s.hears b) :
    ∃ t', confirm b f s (fun u => .next (u.gbFrameError t tx kind)) = .next t' ∧
      (∀ r, s.lookupGb t = some r → r.tx = tx →
        ChangesGb (s.settle b f) t' t none [.event (.receiveBlockFailed t kind)]) ∧
      ((∀ r, s.lookupGb t = some r → r.tx ≠ tx) → t' = s.settle b f) := by
  refine confirmedGb_forRecord hb (gbFrameError_eq · t tx kind) fun r hl => ?_
  obtain rfl := lookupGb_key hl
  exact failGb_changes _ r kind
end

/-- Settles O43: each of the three kinds runs its handler behind the gate `confirm`, and no record changes its key. -/
theorem getBlockConfirmed : Obligations.GetBlockConfirmed := fun _ _ t _ _ _ hb =>
  ⟨confirmedGb_waits hb (after := fun r => { r with rx := .waitingForRequestAck, retryCount := r.retryCount + 1 })
      (gbRequestSent_eq · t) fun _ => rfl,
    confirmedGb_waits hb (after := fun r => { r with rx := .waitingForData, startRetryCount := r.startRetryCount + 1 })
      (gbStartSent_eq · t) fun _ => rfl,
    confirmedGb_waits hb (after := fun r => { r with rx := .waitingForAbortAck, retryCount := r.retryCount + 1 })
      (gbAbortSent_eq · t) fun _ => rfl⟩

/-- Settles O48: each kind runs `State.gbFrameError` with its own sending state and error kind; none reads the reason. -/
theorem getBlockSendError : Obligations.GetBlockSendError := fun _ _ _ _ _ _ _ hb =>
  ⟨confirmedGb_fails hb, confirmedGb_fails hb, confirmedGb_fails hb⟩

/-! ### Valid answers: R231, R235 -/

/-- The record waits for the answer to its REQUEST, and an ACK's content is that answer. -/
abbrev GbRec.RequestAcked (r : GbRec) (n : Seq) (d : List Byte) : Prop :=
  r.rx = .waitingForRequestAck ∧ n.toNat + 1 = r.blocks.toNat ∧ d = r.start

/-- The record waits for the answer to its ABORT, and the content of an ACK or a NACK is that answer. -/
abbrev GbRec.AbortAnswered (r : GbRec) (n : Seq) (d : List Byte) : Prop := r.rx = .waitingForAbortAck ∧ n = 0 ∧ d = []

/-! ### ACK: R443, R467 -/

/-- What a valid ABORT-ACK makes of `r`: its data is delivered unless its START budget is spent. -/
def State.gbAbortAcked (s : State) (r : GbRec) : State :=
  if r.startRetryCount > r.maxStartRetries then s.failGb r .maxSendStartRetriesReached else s.completeGb r

/-- What a valid ACK makes of `r`, by the state it meets. -/
def State.gbAcked (s : State) (r : GbRec) : BlkRx → State
  | .waitingForRequestAck => s.gbSendStart { r with wd := .idle, rx := .idle }
  | .waitingForAbortAck => s.gbAbortAcked r
  | .idle | .waitingForData => s

theorem gbOnAck_eq (s : State) (a : Byte) (n : Seq) (d : List Byte) : s.gbOnAck a n d =
    forRecord (s.lookupGb a) (fun r => r.RequestAcked n d ∨ r.AbortAnswered n d) (fun r => s.gbAcked r r.rx) s := by
  unfold State.gbOnAck forRecord
  cases s.lookupGb a with
  | none => rfl
  | some r =>
    cases hrx : r.rx <;>
      simp [State.gbAcked, State.gbAbortAcked, GbRec.RequestAcked, GbRec.AbortAnswered, hrx, requestAckValid_iff,
        abortAckValid_iff]

theorem gbAbortAcked_ends (s : State) (r : GbRec) : ChangesGb s (s.gbAbortAcked r) r.address none
    [.event (if r.maxStartRetries.toNat < r.startRetryCount.toNat then
        .receiveBlockFailed r.address .maxSendStartRetriesReached
      else .receiveBlockCompleted r.address r.data)] := by
  unfold State.gbAbortAcked
  simp only [gt_iff_lt, BitVec.lt_def]
  split
  · exact failGb_changes s r _
  · exact endTransfer_gb s _ _

/-- Settles O44: behind the gate `receiveLocal`; the two valid answers belong to different `rx` states. -/
theorem getBlockAck : Obligations.GetBlockAck := by
  intro s b f n d hb
  have hres : exec (.gbAck ⟨b, .received⟩ s.address f n d) s = .next _ :=
    (receiveLocal_hears s (h := fun u => .next (u.gbOnAck f n d)) hb rfl).trans (by rw [gbOnAck_eq])
  obtain ⟨t, hnext, hmet, hunmet⟩ := next_forRecord_eq hres
  refine ⟨t, hnext, fun r hl hrx hn hd => ?_, fun r hl hrx hn hd => ?_, fun h => hunmet fun r hl => not_or.2 (h r hl)⟩
  · obtain rfl := hmet r hl (.inl ⟨hrx, hn, hd⟩)
    obtain rfl := lookupGb_key hl
    rw [hrx]
    exact gbHandOff_handsOff s _ _ _ _
  · obtain rfl := hmet r hl (.inr ⟨hrx, hn, hd⟩)
    obtain rfl := lookupGb_key hl
    rw [hrx]
    exact gbAbortAcked_ends s r

/-! ### NACK: R444, R446, R468 -/

/-- What a NACK, valid where the state asks for that, makes of `r`, by the state it meets. -/
def State.gbNacked (s : State) (r : GbRec) : BlkRx → State
  | .waitingForRequestAck => s.gbRetryRequest { r with wd := .idle, rx := .idle }
  | .waitingForData => s.gbRetryStart { r with wd := .idle, rx := .idle }
  | .waitingForAbortAck => s.failGb r .abortNackReceived
  | .idle => s

theorem gbOnNack_eq (s : State) (a : Byte) (n : Seq) (d : List Byte) : s.gbOnNack a n d =
    forRecord (s.lookupGb a) (fun r => r.rx = .waitingForRequestAck ∨ r.rx = .waitingForData ∨ r.AbortAnswered n d)
      (fun r => s.gbNacked r r.rx) s := by
  unfold State.gbOnNack forRecord
  cases s.lookupGb a with
  | none => rfl
  | some r => cases hrx : r.rx <;> simp [State.gbNacked, GbRec.AbortAnswered, hrx, abortAckValid_iff]

/-- Settles O45: behind the gate `receiveLocal`; only the state that waits for an ABORT-ACK reads a NACK's content. -/
theorem getBlockNack : Obligations.GetBlockNack := by
  intro s b f n d hb
  have hres : exec (.gbNack ⟨b, .received⟩ s.address f n d) s = .next _ :=
    (receiveLocal_hears s (h := fun u => .next (u.gbOnNack f n d)) hb rfl).trans (by rw [gbOnNack_eq])
  obtain ⟨t, hnext, hmet, hunmet⟩ := next_forRecord_eq hres
  refine ⟨t, hnext, fun r hl hrx => ?_, fun r hl hrx => ?_, fun r hl hrx hn hd => ?_, fun h => hunmet fun r hl => ?_⟩
  · rw [hmet r hl (.inl hrx), hrx]
    exact gbRetryRequest_retries s _
  · rw [hmet r hl (.inr (.inl hrx)), hrx]
    exact gbRetryStart_retries s _
  · rw [hmet r hl (.inr (.inr ⟨hrx, hn, hd⟩)), hrx]
    exact failGb_changes s r _
  · obtain hrx | ⟨hrx, hinvalid⟩ := h r hl
    · simp [hrx]
    · simpa [hrx] using hinvalid

/-! ### TRANSFER: R460 to R466 -/

/-- The TRANSFER `k` with data `d` is one that `r` still waits for. -/
abbrev GbRec.Awaits (r : GbRec) (k : Nat) (d : List Byte) : Prop :=
  r.rx = .waitingForData ∧ d.length = 8 ∧ k < r.blocks.toNat ∧ bitAt r.bitmap k = true

/-- The record with the TRANSFER `k` stored and its watchdog stopped. -/
def GbRec.stored (r : GbRec) (k : Nat) (d : List Byte) : GbRec :=
  { r with wd := .idle, retryCount := 0, bitmap := withBitClear r.bitmap k,
           data := r.data.take (8 * k) ++ d ++ r.data.drop (8 * k + 8) }

/-- A frame of a well-formed record has its 8 bytes inside the buffer (R47). -/
theorem gbWF_room {p : Params} {r : GbRec} (hw : r.WF p) {k : Nat} (hk : k < r.blocks.toNat) :
    8 * k + 8 ≤ r.data.length := by
  obtain ⟨-, -, -, -, hlen, -⟩ := hw
  omega

/-- With a well-formed record no primitive of the handler faults. -/
theorem gbOnTransfer_eq {s : State} (hi : s.Inv) (a : Byte) (q : Seq) (d : List Byte) : s.gbOnTransfer a q d =
    forRecord (s.lookupGb a) (·.Awaits q.toNat d) (fun r => s.gbAfterTransfer (r.stored q.toNat d)) (.next s) := by
  unfold State.gbOnTransfer
  cases hl : s.lookupGb a with
  | none => rfl
  | some r =>
    have hw := inv_gbWF hi hl
    by_cases hc : r.rx = .waitingForData ∧ d.length = 8 ∧ q.toNat < r.blocks.toNat
    · obtain ⟨hrx, hd, hq⟩ := hc
      have hbit : q.toNat < 8 * r.bitmap.length := Nat.lt_of_lt_of_le hq (gbWF_le hw)
      have hroom : 8 * q.toNat + d.length ≤ r.data.length := hd ▸ gbWF_room hw hq
      simp [forRecord, GbRec.Awaits, GbRec.stored, hrx, hd, hq, checked, isBitSet_ok hbit, clearBit_ok hbit,
        memWrite_ok hroom]
    · exact (if_neg hc).trans (if_neg fun ⟨hrx, hd, hq, _⟩ => hc ⟨hrx, hd, hq⟩).symm

/-- What follows a stored TRANSFER: ABORT once no frame is outstanding, and the watchdog of R465 before that. -/
theorem gbAfterTransfer_next (s : State) {r : GbRec} (hn : r.blocks.toNat ≤ 8 * r.bitmap.length) :
    ∃ t, s.gbAfterTransfer r = .next t ∧
      if ∀ k < r.blocks.toNat, bitAt r.bitmap k = false then
        HandsOffGb s t { r with rx := .idle } (gbAbortFrame s.address r) .sendingAbort .sendAbortFailed
      else
        ChangesGb s t r.address (some { r with wd := dataWatchdog s.params.gbDataWatchdog s.timeoutMs }) [] := by
  simp only [State.gbAfterTransfer, allCleared_ok hn, checked, decide_eq_true_eq]
  split
  · exact ⟨_, rfl, gbHandOff_handsOff s { r with rx := .idle } _ _ _⟩
  · exact ⟨_, rfl, putGb_changes s { r with wd := dataWatchdog s.params.gbDataWatchdog s.timeoutMs }⟩

/-- The TRANSFER `k` was the last one when no other frame was outstanding. -/
theorem stored_complete_iff {r : GbRec} {k : Nat} {d : List Byte} :
    (∀ j < (r.stored k d).blocks.toNat, bitAt (r.stored k d).bitmap j = false) ↔
      ∀ j < r.blocks.toNat, j ≠ k → bitAt r.bitmap j = false := by
  refine forall₂_congr fun j _ => ?_
  rw [GbRec.stored, bitAt_withBitClear]
  by_cases hj : j = k <;> simp [hj]

/-- Settles O46: the TRANSFER is stored, and the cleared bitmap says whether it was the last. -/
theorem getBlockTransfer : Obligations.GetBlockTransfer := by
  intro s b f q d hi hb
  have hres : exec (.gbTransfer ⟨b, .received⟩ s.address f q d) s = _ :=
    (receiveLocal_hears s (h := (·.gbOnTransfer f q d)) hb rfl).trans (gbOnTransfer_eq hi f q d)
  obtain ⟨t, hnext, hvalid, hinvalid⟩ := result_forRecord hres fun r hl _ =>
    gbAfterTransfer_next s (r := r.stored q.toNat d) (by
      rw [GbRec.stored, withBitClear_length]; exact gbWF_le (inv_gbWF hi hl))
  refine ⟨t, hnext, fun r hl hv => ?_, hinvalid⟩
  have hafter := hvalid r hl hv
  obtain rfl := lookupGb_key hl
  by_cases hlast : ∀ k < r.blocks.toNat, k ≠ q.toNat → bitAt r.bitmap k = false
  · rw [if_pos (stored_complete_iff.2 hlast)] at hafter
    simp only [if_pos hlast]
    exact hafter
  · rw [if_neg fun h => hlast (stored_complete_iff.1 h)] at hafter
    simp only [if_neg hlast]
    exact ⟨fun hp => by rwa [hp] at hafter, fun hp => by rwa [hp] at hafter⟩

/-! ### The watchdog: R471 -/

/-- The retry policy that a watchdog runs on `r` by the state the record waited in. -/
def State.gbWatchdogRetry (s : State) (r : GbRec) : WatchdogDispatch → BlkRx → State
  | .literal, _ => s.gbRetryRequest r
  | .perState, .waitingForRequestAck => s.gbRetryRequest r
  | .perState, .waitingForData => s.gbRetryStart r
  | .perState, .waitingForAbortAck => s.gbRetryAbort r
  | .perState, .idle => s.gbRetryAbort r

theorem execWdFireGb_eq (s : State) (a : Byte) : execWdFireGb a s = .next (forRecord (s.lookupGb a)
    (fun r => s.running = true ∧ r.wd.isArmed = true)
    (fun r => s.gbWatchdogRetry { r with wd := .idle, rx := .idle } s.params.watchdogDispatch r.rx) s) := by
  unfold execWdFireGb forRecord
  cases s.lookupGb a with
  | none => rfl
  | some r =>
    simp only [Bool.and_eq_true, apply_ite Host.Outcome.next]
    cases s.params.watchdogDispatch
    · cases r.rx <;> rfl
    · rfl

theorem gbWatchdogRetry_retries (s : State) (r : GbRec) (w : WatchdogDispatch) (rx : BlkRx) :
    (w = .literal → RetriesGbRequest s (s.gbWatchdogRetry r w rx) r) ∧
    (w = .perState → (rx = .waitingForRequestAck → RetriesGbRequest s (s.gbWatchdogRetry r w rx) r) ∧
      (rx = .waitingForData → RetriesGbStart s (s.gbWatchdogRetry r w rx) r) ∧
      (rx = .waitingForAbortAck → RetriesGbAbort s (s.gbWatchdogRetry r w rx) r)) := by
  refine ⟨?_, fun hw => ⟨?_, ?_, ?_⟩⟩
  · rintro rfl; exact gbRetryRequest_retries s r
  · rintro rfl; rw [hw]; exact gbRetryRequest_retries s r
  · rintro rfl; rw [hw]; exact gbRetryStart_retries s r
  · rintro rfl; rw [hw]; exact gbRetryAbort_retries s r

/-- Settles O47: while the engine runs, the test of a watchdog fire is that the watchdog is armed. -/
theorem getBlockWatchdog : Obligations.GetBlockWatchdog := by
  intro s a hr
  obtain ⟨t, hnext, harmed, hidle⟩ := next_forRecord_eq (execWdFireGb_eq s a)
  refine ⟨t, hnext, fun r hl hw => ?_, fun h => hidle fun r hl hc => not_isArmed_of_idle (h r hl) hc.2⟩
  obtain rfl := harmed r hl ⟨hr, hw⟩
  exact gbWatchdogRetry_retries s _ _ _

/-! ### A valid ReceiveBlock: R441 -/

section
variable {u t : State} {a : Byte} {ev : List HostOut}

theorem ChangesGb.giveBool {r : Option GbRec} (h : ChangesGb u t a r ev) (v : Bool) :
    ChangesGb u (t.giveBool v) a r (ev ++ [.result (.bool v)]) := by
  obtain ⟨hself, hother, heq⟩ := h
  refine ⟨hself, hother, ?_⟩
  rw [heq]
  simp [State.giveBool, State.give]

theorem emit_changesGb (e : OutEvent) (h : u.lookupGb a = none) : ChangesGb u (u.emit e) a none [.event e] :=
  ⟨h, fun _ _ => rfl, rfl⟩
end

/-- The bitmap of a new record: every one of its `n` frames is outstanding (R441). -/
def gbOutstanding (n : Nat) : List Byte := (List.range n).foldl withBitSet (bmZero n)

theorem bmZero_room (n : Nat) : n ≤ 8 * (bmZero n).length := by
  rw [bmZero_length]; exact bmSize_le n

theorem setFirstN_bmZero (n : Nat) : setFirstN (bmZero n) n = .ok (gbOutstanding n) := setFirstN_ok (bmZero_room n)

theorem gbOutstanding_length (n : Nat) : (gbOutstanding n).length = bmSize n := by
  rw [gbOutstanding, foldl_withBitSet_length, bmZero_length]

theorem bitAt_gbOutstanding (n k : Nat) : bitAt (gbOutstanding n) k = decide (k < n) := by
  rw [gbOutstanding, bitAt_setFirst (bmZero_room n), bitAt_bmZero, Bool.or_false]

/-- `n` frames are the frames of `8 * n` bytes (R241). -/
theorem requestNum_ofNat {n : Nat} (h1 : 1 ≤ n) (h64 : n ≤ 64) :
    requestNum (BitVec.ofNat 8 n) = BitVec.ofNat 6 (n - 1) := by
  have hblocks : sbBlocks (8 * n) = n := by unfold sbBlocks ceilDiv8; omega
  have hnum := requestNum_sbBlocks (n := 8 * n) (by omega) (by omega)
  rwa [hblocks] at hnum

/-- A valid ReceiveBlock passes every test of R440 and offers its REQUEST to the driver. -/
theorem exec_receiveBlock_valid {s : State} {addr : Byte} {n : Nat} (v : Word64) (retry startRetry : Byte)
    (hr : s.running = true) (ha : Unicast addr) (hl : s.lookupGb addr = none) (h1 : 1 ≤ n) (h64 : n ≤ 64) :
    exec (.receiveBlock addr v n retry startRetry) s =
      let u := s.afterSend (gbFrame .request addr s.address (BitVec.ofNat 6 (n - 1)) (encodeStart v))
      if s.accepts then .next ((u.putGb (newGbRec addr v n (gbOutstanding n) retry startRetry)).giveBool true)
      else .next ((u.emit (.receiveBlockFailed addr .sendRequestFailed)).giveBool false) := by
  have hn : ¬(n < 1 ∨ n > 64) := by omega
  simp only [exec, execReceiveBlock, hr, isBroadcast_of_unicast ha, hl, hn, Option.isSome_none, Bool.true_eq_false,
    Bool.false_eq_true, if_false, setFirstN_bmZero, checked, ← requestNum_ofNat h1 h64]
  rfl

/-- Settles O26: the driver's answer decides between the new record and the failure event, each with its result. -/
theorem receiveBlockStarts : Obligations.ReceiveBlockStarts := by
  intro s addr retry startRetry start n hr h0 h1 hl hlen1 hlen64
  rw [exec_receiveBlock_valid start retry startRetry hr ⟨h0, h1⟩ hl hlen1 hlen64]
  by_cases hacc : s.accepts = true
  · simp only [if_pos hacc]
    exact ⟨_, _, rfl, gbOutstanding_length n, bitAt_gbOutstanding n,
      (putGb_changes _ (newGbRec addr start n (gbOutstanding n) retry startRetry)).giveBool true⟩
  · simp only [if_neg hacc]
    exact ⟨_, _, rfl, gbOutstanding_length n, bitAt_gbOutstanding n,
      (emit_changesGb _ (by rwa [lookupGb_afterSend])).giveBool false⟩

end Sys2Proof.Machine
end

section
/-! PROOFS. Time-sync, unsolicited and keep-alive (R490 to R498): the two commands, the confirmations and the receive paths.

None of these frames has a record. A command offers one frame and reports the driver's answer; a confirmation that the
engine hears emits one event on the state without the confirmed frame; a received frame emits one event. -/

namespace Sys2Proof.Machine

/-! ### Commands that send one frame: R490, R492, R493 -/

/-- A frame that is offered without a record: taken, the command gives true; refused, it emits `e` and gives false. -/
theorem next_offered (s : State) (f : LogicalFrame) (e : OutEvent) :
    (if s.accepts then .next ((s.afterSend f).giveBool true)
      else .next (((s.afterSend f).emit e).giveBool false) : Result) =
      .next { s.afterSend f with
        out := s.out ++ if s.accepts then [.result (.bool true)] else [.event e, .result (.bool false)] } := by
  cases hacc : s.accepts with
  | true => simp [State.giveBool, State.give]
  | false => simp [State.giveBool, State.give, State.emit]

theorem exec_sendTimeSync_running {s : State} (time : Word64) (hr : s.running = true) :
    exec (.sendTimeSync time) s =
      let u := s.afterSend (timesyncFrame s.address (leBytes8 time))
      if s.accepts then .next (u.giveBool true) else .next ((u.emit (.sendTimeSyncFailed time)).giveBool false) :=
  if_neg (by simp [hr])

theorem exec_sendUnsolicited_valid {s : State} {addr : Byte} (ch : Byte) {d : List Byte} (hr : s.running = true)
    (ha : addr ≠ 0x00) (hd : d.length ≤ 8) :
    exec (.sendUnsolicited addr ch d) s =
      let u := s.afterSend (unsolFrame addr s.address ch d)
      if s.accepts then .next (u.giveBool true) else .next ((u.emit (.sendUnsolicitedFailed addr ch)).giveBool false) := by
  have hrun : ¬s.running = false := by simp [hr]
  have hvalid : ¬(addr = Config.timeSyncAddress ∨ d.length > 8) := fun h => h.elim ha (Nat.not_lt.2 hd)
  exact (if_neg hrun).trans (if_neg hvalid)

/-- Settles O27: a valid command passes its tests and offers its frame, with no record to create. -/
theorem auxiliarySends : Obligations.AuxiliarySends :=
  ⟨fun _ time hr => (exec_sendTimeSync_running time hr).trans (next_offered _ _ _),
    fun _ _ ch _ hr ha hd => (exec_sendUnsolicited_valid ch hr ha hd).trans (next_offered _ _ _)⟩

/-! ### Confirmations: R298, R491, R494 -/

section
variable {s : State} {b : Bus} {c : CanFrame}

/-- A confirmation that the engine hears and answers with one event. -/
theorem confirm_emits (hb : s.hears b) (e : OutEvent) : confirm b c s (fun u => .next (u.emit e)) =
    .next { s.settle b c with out := s.out ++ [.event e] } := by
  rw [confirm_hears s hb, State.emit, settle_out]

variable {f : LogicalFrame}

theorem routeSent_timeSync (h : f.transferType = TransferType.timeSync.bits) :
    s.routeSent f = .next (s.timeSyncSent f.data) := by simp only [State.routeSent, eq_bits_iff.1 h]

theorem routeError_timeSync (h : f.transferType = TransferType.timeSync.bits) :
    s.routeError f = s.timeSyncError f.data := by simp only [State.routeError, eq_bits_iff.1 h]

theorem routeSent_unsolicited (h : f.transferType = TransferType.unsolicited.bits) :
    s.routeSent f = .next (s.unsolSent f.toAddress (ttChannel f.command)) := by
  simp only [State.routeSent, eq_bits_iff.1 h]

theorem routeError_unsolicited (h : f.transferType = TransferType.unsolicited.bits) :
    s.routeError f = s.unsolError f.toAddress (ttChannel f.command) := by
  simp only [State.routeError, eq_bits_iff.1 h]

variable (e : SendErrorReason)

/-- A confirmed frame of type 0 gives the time-sync event with its data's value (R491). -/
theorem exec_confirmed_timeSync (ht : idTransferType c.id = TransferType.timeSync.bits) :
    exec (.frameSent b c) s = confirm b c s (fun u => .next (u.timeSyncSent c.data)) ∧
    exec (.sendError b c e) s = confirm b c s (fun u => .next (u.timeSyncError c.data)) := by
  simp only [exec_frameSent, exec_sendError, routeSent_timeSync (f := frameFields c) ht,
    routeError_timeSync (f := frameFields c) ht]
  exact ⟨rfl, rfl⟩

/-- A confirmed frame of type 1 gives the unsolicited event with its target and channel (R494). -/
theorem exec_confirmed_unsolicited (ht : idTransferType c.id = TransferType.unsolicited.bits) :
    exec (.frameSent b c) s =
      confirm b c s (fun u => .next (u.unsolSent (idToAddress c.id) (ttChannel (idCommand c.id)))) ∧
    exec (.sendError b c e) s =
      confirm b c s (fun u => .next (u.unsolError (idToAddress c.id) (ttChannel (idCommand c.id)))) := by
  simp only [exec_frameSent, exec_sendError, routeSent_unsolicited (f := frameFields c) ht,
    routeError_unsolicited (f := frameFields c) ht]
  exact ⟨rfl, rfl⟩
end

/-- Settles O49: each notification and each frame kind emits its one event behind the gate `confirm`. -/
theorem auxiliaryConfirmed : Obligations.AuxiliaryConfirmed := by
  refine ⟨fun s b c e hb ht => ?timeSync, fun s b c e hb ht => ?unsolicited, fun s b e t f ch d hb => ?kinds,
    leValue_leBytes8⟩
  case timeSync =>
    obtain ⟨hsent, herror⟩ := exec_confirmed_timeSync (s := s) (b := b) e ht
    exact ⟨hsent.trans (confirm_emits hb _), herror.trans (confirm_emits hb _)⟩
  case unsolicited =>
    obtain ⟨hsent, herror⟩ := exec_confirmed_unsolicited (s := s) (b := b) e ht
    exact ⟨hsent.trans (confirm_emits hb _), herror.trans (confirm_emits hb _)⟩
  case kinds =>
    rw [exec_unsol, exec_unsol, exec_keepalive, exec_keepalive, exec_timesync, exec_timesync]
    exact ⟨confirm_emits hb _, confirm_emits hb _, confirm_emits hb _, confirm_emits hb _, confirm_emits hb _,
      confirm_emits hb _⟩

/-! ### Receive paths: R495 to R498 -/

section
variable {s : State} {b : Bus} (f ch : Byte) (d : List Byte)

/-- A driver delivers only while the engine runs, and then the local address is no broadcast address (R31, R36). -/
theorem unicast_of_delivers (hi : s.Inv) (hd : s.delivers b = true) : Unicast s.address := by
  obtain ⟨-, -, -, hunicast, -⟩ := hi
  exact hunicast (Bool.and_eq_true_iff.1 hd).1

theorem keepaliveReceived_active (hb : s.hears b) (ha : s.address ≠ Config.keepAliveAddress) :
    keepaliveReceived b f ch d s = .next (s.keepAliveActive f ch d) := by
  rw [keepaliveReceived, if_pos hb.1, if_pos hb.2, if_neg ha]

theorem keepaliveReceived_inactive (hd : s.delivers b = true) (hb : b ≠ s.activeBus) :
    keepaliveReceived b f ch d s = .next (s.keepAliveInactive f ch d) := by
  rw [keepaliveReceived, if_pos hd, if_neg hb]

theorem timesyncReceived_active (hb : s.hears b) (ha : s.address ≠ Config.timeSyncAddress) :
    timesyncReceived b f d s = .next (s.timeSyncIn f d) := if_pos ⟨hb.1, hb.2, ha⟩

theorem timesyncReceived_inactive (hb : b ≠ s.activeBus) : timesyncReceived b f d s = .next s := if_neg fun h => hb h.2.1
end

/-- Settles O50: the local address is neither broadcast address, so the bus alone decides what each kind does. -/
theorem auxiliaryReceived : Obligations.AuxiliaryReceived := by
  intro s b f ch d hi hd
  obtain ⟨hne0, hne1⟩ := unicast_of_delivers hi hd
  simp only [exec_unsol, exec_keepalive, exec_timesync, atPort_received]
  refine ⟨fun hb => ⟨?_, ?_, ?_⟩, fun hb => ⟨?_, ?_⟩⟩
  · exact receiveLocal_hears s ⟨hd, hb⟩ rfl
  · exact keepaliveReceived_active f ch d ⟨hd, hb⟩ hne1
  · exact timesyncReceived_active f d ⟨hd, hb⟩ hne0
  · exact keepaliveReceived_inactive f ch d hd hb
  · exact timesyncReceived_inactive f d hb

end Sys2Proof.Machine
end

section
/-! PROOFS. Lifecycle and refusals: Start, Stop and the accessors (R520 to R528), and what a command that fails its
validation answers (R529, R565). -/

namespace Sys2Proof.Machine

/-! ### Start and Stop: R520 to R525 -/

section
variable {s : State}

theorem exec_start_valid {addr : Byte} (ms : Word32) (nom red : PortSettings) (ha : Unicast addr)
    (hr : s.running = false) : exec (.start addr ms (.serial nom red)) s = .next (s.startWith addr ms nom red) := by
  simp only [exec, execStart, isBroadcast_of_unicast ha, hr, Bool.false_eq_true, if_false]

theorem startWith_opened (addr : Byte) (ms : Word32) (nom red : PortSettings)
    (hn : s.nominal.nextAnswer .nominal = true) (hd : s.redundant.nextAnswer .redundant = true) :
    s.startWith addr ms nom red =
      { s with address := addr, timeoutMs := ms, activeBus := .nominal, running := true,
               nominal := s.nominal.openWith nom, redundant := s.redundant.openWith red,
               out := s.out ++ [.result (.bool true)] } := by
  rw [State.startWith, if_pos hn, if_pos hd]; rfl

/-- A Start that fails reports false and leaves each driver closed again, or as it was but for its answer. -/
theorem startWith_failed (addr : Byte) (ms : Word32) (nom red : PortSettings)
    (h : ¬(s.nominal.nextAnswer .nominal = true ∧ s.redundant.nextAnswer .redundant = true)) :
    ∃ n d : Link, s.startWith addr ms nom red =
        { s with address := addr, timeoutMs := ms, nominal := n, redundant := d,
                 out := s.out ++ [.result (.bool false)] } ∧
      (n.state = .closed ∨ n.state = s.nominal.state) ∧ d.state = s.redundant.state := by
  by_cases hn : s.nominal.nextAnswer .nominal = true
  · rw [State.startWith, if_pos hn, if_neg fun hd => h ⟨hn, hd⟩]
    exact ⟨_, _, rfl, .inl rfl, rfl⟩
  · rw [State.startWith, if_neg hn]
    exact ⟨_, _, rfl, .inr rfl, rfl⟩

theorem exec_stop_running (hr : s.running = true) :
    exec .stop s = .next { s.clearRegistries with nominal := s.nominal.closed, redundant := s.redundant.closed,
                                                  running := false } := if_pos hr

theorem exec_stop_stopped (hr : s.running = false) : exec .stop s = .next s := if_neg (by simp [hr])
end

theorem state_of_not_isOpen {l : Link} (h : l.isOpen = false) : l.state = .closed := by
  unfold Link.isOpen at h
  split at h
  · assumption
  · cases h

/-- Settles O51: the two answers decide, and a driver that was closed is closed again when either is false. -/
theorem startOpensBothDrivers : Obligations.StartOpensBothDrivers := by
  intro s addr ms nom red h0 h1 hr hno hdo
  refine ⟨_, exec_start_valid ms nom red ⟨h0, h1⟩ hr, ?_⟩
  split
  case isTrue h =>
    rw [startWith_opened addr ms nom red h.1 h.2]
    exact ⟨rfl, rfl, rfl, rfl, rfl⟩
  case isFalse h =>
    obtain ⟨n, d, heq, hn, hd⟩ := startWith_failed addr ms nom red h
    rw [heq]
    exact ⟨rfl, hn.elim id (·.trans (state_of_not_isOpen hno)), hd.trans (state_of_not_isOpen hdo)⟩

/-- Settles O52: the fields that `State.clearRegistries` and `Link.closed` write. -/
theorem stopClearsAndCloses : Obligations.StopClearsAndCloses :=
  ⟨fun _ => exec_stop_running, fun _ => exec_stop_stopped⟩

/-- Settles O53: each accessor is one `State.give`. -/
theorem accessors : Obligations.Accessors := fun _ => ⟨rfl, rfl⟩

/-! ### Refusals: R529, R565 -/

theorem isBroadcast_iff {a : Byte} : isBroadcast a = true ↔ a = 0x00 ∨ a = 0x01 := by
  simp [isBroadcast, Config.timeSyncAddress, Config.keepAliveAddress]

section
variable {s : State} {addr ch retry : Byte}

theorem exec_sendTc_refused {d : List Byte} (h : s.running = false ∨ addr = 0x00 ∨ addr = 0x01 ∨
    (s.lookupTc addr ch).isSome = true ∨ 8 < d.length) :
    exec (.sendTc addr ch d retry) s = .next (s.giveBool false) := by
  refine ite_eq_left_iff.2 fun hrun => ite_eq_left_iff.2 fun ha => ite_eq_left_iff.2 fun hl => if_pos ?_
  rw [isBroadcast_iff] at ha
  tauto

theorem exec_receiveTm_refused (h : s.running = false ∨ addr = 0x00 ∨ addr = 0x01 ∨
    (s.lookupTm addr ch).isSome = true) : exec (.receiveTm addr ch retry) s = .next (s.giveBool false) := by
  refine ite_eq_left_iff.2 fun hrun => ite_eq_left_iff.2 fun ha => if_pos ?_
  rw [isBroadcast_iff] at ha
  tauto

theorem exec_sendBlock_refused {v : Word64} {d : List Byte} {ms : Word32} {reportRetry : Byte}
    (h : s.running = false ∨ addr = 0x00 ∨ addr = 0x01 ∨ (s.lookupSb addr).isSome = true ∨ d.length = 0 ∨
      512 < d.length) : exec (.sendBlock addr v d retry ms reportRetry) s = .next (s.giveBool false) := by
  refine ite_eq_left_iff.2 fun hrun => ite_eq_left_iff.2 fun ha => ite_eq_left_iff.2 fun hl => if_pos ?_
  rw [isBroadcast_iff] at ha
  rw [Nat.lt_one_iff]
  tauto

theorem exec_receiveBlock_refused {v : Word64} {n : Nat} {startRetry : Byte}
    (h : s.running = false ∨ addr = 0x00 ∨ addr = 0x01 ∨ (s.lookupGb addr).isSome = true ∨ n = 0 ∨ 64 < n) :
    exec (.receiveBlock addr v n retry startRetry) s = .next (s.giveBool false) := by
  refine ite_eq_left_iff.2 fun hrun => ite_eq_left_iff.2 fun ha => ite_eq_left_iff.2 fun hl => if_pos ?_
  rw [isBroadcast_iff] at ha
  rw [Nat.lt_one_iff]
  tauto

theorem exec_sendUnsolicited_refused {d : List Byte} (h : s.running = false ∨ addr = 0x00 ∨ 8 < d.length) :
    exec (.sendUnsolicited addr ch d) s = .next (s.giveBool false) :=
  ite_eq_left_iff.2 fun hrun => if_pos (h.resolve_left hrun)

theorem exec_start_refused {ms : Word32} {cfg : Settings}
    (h : addr = 0x00 ∨ addr = 0x01 ∨ cfg = .nonSerial ∨ s.running = true) :
    exec (.start addr ms cfg) s = .next (s.giveBool false) := by
  refine ite_eq_left_iff.2 fun ha => ?_
  obtain ⟨h0, h1⟩ := not_or.1 (isBroadcast_iff.not.1 ha)
  cases cfg with
  | nonSerial => rfl
  | serial nom red => exact if_pos (((h.resolve_left h0).resolve_left h1).resolve_left nofun)
end

/-- Settles O28: the tests of a command in their order; past them, Start stores what a failed open leaves stored. -/
theorem invalidCommandsAreRefused : Obligations.InvalidCommandsAreRefused := by
  refine ⟨fun _ _ _ _ _ => exec_sendTc_refused, fun _ _ _ _ => exec_receiveTm_refused,
    fun _ _ _ _ _ _ _ => exec_sendBlock_refused, fun _ _ _ _ _ _ => exec_receiveBlock_refused,
    fun _ _ hr => if_pos hr, fun _ _ _ _ => exec_sendUnsolicited_refused, fun _ _ _ _ => exec_start_refused,
    fun s addr ms nom red h0 h1 hr hfail => ⟨_, exec_start_valid ms nom red ⟨h0, h1⟩ hr, ?_⟩⟩
  obtain ⟨n, d, heq, -, -⟩ := startWith_failed (s := s) addr ms nom red fun ⟨hn, hd⟩ =>
    hfail.elim (fun h => Bool.false_ne_true (h.symm.trans hn)) fun h => Bool.false_ne_true (h.symm.trans hd)
  rw [heq]

end Sys2Proof.Machine
end

section
/-! PROOFS. What a step does to one transfer (`ActsOn`): it leaves the records under other keys, the registers, the
drivers' states, the posted events and the parameters as they were, and a live transfer gets its one terminal event in
the step that removes it (R577, R590, R591).

The laws of Sys2Proof/Laws/Effects.lean say of each shared operation which record it changes and what the host port
gains (`ChangesTc` and its kin). That gives `ActsOn` for the shared operations, and from those each handler has it. No
invariant is assumed, so what a handler does is said by `Ensures`. -/

namespace Sys2Proof.Machine

/-! ### Acting on one transfer -/

/-- `t` has the registers (R31 to R34) and the drivers' states (R36) of `s`. -/
structure SameSetup (s t : State) : Prop where
  address : t.address = s.address
  timeoutMs : t.timeoutMs = s.timeoutMs
  running : t.running = s.running
  activeBus : t.activeBus = s.activeBus
  nominal : t.nominal.state = s.nominal.state
  redundant : t.redundant.state = s.redundant.state

/-- From `s` to `t` no record changes but the one under `k`, no posted event and no parameter, and a transfer that was
live has one terminal event if it is gone and none if it is still live (R577). -/
structure TransfersOn (k : Option Key) (s t : State) : Prop where
  records : ∀ j, k ≠ some j → SameRecord s t j
  pending : t.pending = s.pending
  params : t.params = s.params
  events : ∃ ev, t.out = s.out ++ ev ∧ ∀ j, s.live j = true → endings j ev = if t.live j then 0 else 1

/-- What a step does that is correlated to the transfer under `k`, or to none. -/
structure ActsOn (k : Option Key) (s t : State) : Prop extends SameSetup s t, TransfersOn k s t

/-- The events of an operation on the transfer under `k`: none while it is live, its terminal event when it is gone. -/
inductive TerminalOf (k : Key) : Bool → List HostOut → Prop
  | live : TerminalOf k true []
  | gone {e : OutEvent} (h : e.ends = some k) : TerminalOf k false [.event e]

theorem TerminalOf.endings_self {k : Key} {live : Bool} {ev : List HostOut} (h : TerminalOf k live ev) :
    endings k ev = if live then 0 else 1 := by
  cases h with
  | live => rfl
  | gone h => simp [endings, HostOut.ends, h]

theorem TerminalOf.endings_other {k j : Key} {live : Bool} {ev : List HostOut} (h : TerminalOf k live ev) (hj : j ≠ k) :
    endings j ev = 0 := by
  cases h with
  | live => rfl
  | gone h => simpa [endings, HostOut.ends, h] using hj.symm

section
variable {s t u : State} {k : Option Key}

theorem sameRecord_of_registries (htc : t.tc = s.tc) (htm : t.tm = s.tm) (hsb : t.sb = s.sb) (hgb : t.gb = s.gb)
    (j : Key) : SameRecord s t j := by
  cases j with
  | tc a ch => exact lookupTc_congr htc a ch
  | tm a ch => exact lookupTm_congr htm a ch
  | sb a => exact lookupSb_congr hsb a
  | gb a => exact lookupGb_congr hgb a

theorem SameRecord.trans {j : Key} (h : SameRecord s u j) (h' : SameRecord u t j) : SameRecord s t j := by
  cases j <;> exact Eq.trans h' h

theorem SameRecord.live {j : Key} (h : SameRecord s t j) : t.live j = s.live j := by
  cases j <;> exact congrArg Option.isSome h

theorem SameSetup.trans (h : SameSetup s u) (h' : SameSetup u t) : SameSetup s t :=
  ⟨h'.address.trans h.address, h'.timeoutMs.trans h.timeoutMs, h'.running.trans h.running,
    h'.activeBus.trans h.activeBus, h'.nominal.trans h.nominal, h'.redundant.trans h.redundant⟩

/-- Outputs that end no live transfer, on registries as they were. -/
theorem transfersOn_of_same {ev : List HostOut} (hrec : ∀ j, SameRecord s t j) (hpending : t.pending = s.pending)
    (hparams : t.params = s.params) (hout : t.out = s.out ++ ev) (hev : ∀ j, s.live j = true → endings j ev = 0) :
    TransfersOn k s t :=
  ⟨fun j _ => hrec j, hpending, hparams, ev, hout, fun j hj => by rw [hev j hj, (hrec j).live, hj]; rfl⟩

/-- An operation on the one record under `j`. -/
theorem transfersOn_of_changes {j : Key} {ev : List HostOut} (hrec : ∀ i, i ≠ j → SameRecord s t i)
    (hpending : t.pending = s.pending) (hparams : t.params = s.params) (hout : t.out = s.out ++ ev)
    (hev : TerminalOf j (t.live j) ev) : TransfersOn (some j) s t := by
  refine ⟨fun i hi => hrec i fun h => hi (h ▸ rfl), hpending, hparams, ev, hout, fun i hi => ?_⟩
  by_cases hij : i = j
  · subst hij; exact hev.endings_self
  · rw [hev.endings_other hij, (hrec i hij).live, hi]; rfl

theorem ActsOn.refl (k : Option Key) (s : State) : ActsOn k s s :=
  ⟨⟨rfl, rfl, rfl, rfl, rfl, rfl⟩,
    transfersOn_of_same (sameRecord_of_registries rfl rfl rfl rfl) rfl rfl (List.append_nil _).symm fun _ _ => rfl⟩

theorem actsOn_self : Ensures (ActsOn k s) (.next s) := ensures_next (.refl k s)

/-! ### The drivers and the host port -/

theorem sameSetup_setLink {b : Bus} {l : Link} (hl : l.state = (s.link b).state) : SameSetup s (s.setLink b l) := by
  cases b with
  | nominal => exact ⟨rfl, rfl, rfl, rfl, hl, rfl⟩
  | redundant => exact ⟨rfl, rfl, rfl, rfl, rfl, hl⟩

/-- A driver may be written before an action on a transfer, as long as it stays open or closed as it was. -/
theorem ActsOn.of_setLink {b : Bus} {l : Link} (hl : l.state = (s.link b).state) (h : ActsOn k (s.setLink b l) t) :
    ActsOn k s t := by
  have hsame := sameRecord_of_registries (setLink_tc s b l) (setLink_tm s b l) (setLink_sb s b l) (setLink_gb s b l)
  obtain ⟨ev, hout, hev⟩ := h.events
  exact ⟨(sameSetup_setLink hl).trans h.toSameSetup, fun j hj => (hsame j).trans (h.records j hj),
    h.pending.trans (setLink_pending s b l), h.params.trans (setLink_params s b l), ev, by rw [hout, setLink_out],
    fun j hj => hev j ((hsame j).live.trans hj)⟩

theorem ActsOn.of_afterSend {f : LogicalFrame} (h : ActsOn k (s.afterSend f) t) : ActsOn k s t :=
  h.of_setLink offer_state_inFlight.1

theorem ActsOn.of_settle {b : Bus} {c : CanFrame} (h : ActsOn k (s.settle b c) t) : ActsOn k s t :=
  .of_setLink (by rfl) h

theorem actsOn_confirm {b : Bus} {c : CanFrame} {h : State → Result} (hh : ∀ u : State, Ensures (ActsOn k u) (h u)) :
    Ensures (ActsOn k s) (confirm b c s h) :=
  ensures_confirm (.refl k s) (ActsOn.refl k (s.settle b c)).of_settle ((hh _).mono fun _ => ActsOn.of_settle)

/-- An output that ends no transfer. -/
theorem ActsOn.output {o : HostOut} (ho : o.ends = none) (h : ActsOn k s t) :
    ActsOn k s { t with out := t.out ++ [o] } := by
  have hsame := sameRecord_of_registries (s := t) (t := { t with out := t.out ++ [o] }) rfl rfl rfl rfl
  obtain ⟨hsetup, hrec, hpending, hparams, ev, hout, hev⟩ := h
  refine ⟨hsetup.trans ⟨rfl, rfl, rfl, rfl, rfl, rfl⟩, fun j hj => (hrec j hj).trans (hsame j), hpending, hparams,
    ev ++ [o], by rw [hout, List.append_assoc], fun j hj => ?_⟩
  have hnone : endings j [o] = 0 := by simp [endings, ho]
  rw [(hsame j).live, ← hev j hj, endings, List.countP_append]
  exact congrArg (endings j ev + ·) hnone

theorem ActsOn.giveBool (h : ActsOn k s t) (v : Bool) : ActsOn k s (t.giveBool v) := h.output rfl

theorem actsOn_emit {e : OutEvent} (he : e.ends = none) : Ensures (ActsOn k s) (.next (s.emit e)) :=
  ensures_next ((ActsOn.refl k s).output (o := .event e) he)
end

/-! ### One record: hand-offs, retries and ends -/

theorem of_ite_prop {c p q r : Prop} [Decidable c] (h : if c then p else q) (hp : p → r) (hq : q → r) : r := by
  split at h
  · exact hp h
  · exact hq h

section
variable {u t : State} {a ch a' ch' : Byte} {ev : List HostOut}

theorem ChangesTc.actsOn {r : Option TcRec} (h : ChangesTc u t a ch r ev) (hk : a = a' ∧ ch = ch')
    (hev : TerminalOf (.tc a ch) r.isSome ev) : ActsOn (some (.tc a' ch')) u t := by
  obtain ⟨rfl, rfl⟩ := hk
  obtain ⟨rfl, hother, heq⟩ := h
  refine ⟨by rw [heq]; exact ⟨rfl, rfl, rfl, rfl, rfl, rfl⟩, transfersOn_of_changes (fun j hj => ?_)
    (by rw [heq]) (by rw [heq]) (congrArg State.out heq) hev⟩
  cases j with
  | tc b cb => exact hother b cb fun ⟨hb, hcb⟩ => hj (hb ▸ hcb ▸ rfl)
  | tm b cb => exact lookupTm_congr (congrArg State.tm heq) b cb
  | sb b => exact lookupSb_congr (congrArg State.sb heq) b
  | gb b => exact lookupGb_congr (congrArg State.gb heq) b

theorem ChangesTm.actsOn {r : Option TmRec} (h : ChangesTm u t a ch r ev) (hk : a = a' ∧ ch = ch')
    (hev : TerminalOf (.tm a ch) r.isSome ev) : ActsOn (some (.tm a' ch')) u t := by
  obtain ⟨rfl, rfl⟩ := hk
  obtain ⟨rfl, hother, heq⟩ := h
  refine ⟨by rw [heq]; exact ⟨rfl, rfl, rfl, rfl, rfl, rfl⟩, transfersOn_of_changes (fun j hj => ?_)
    (by rw [heq]) (by rw [heq]) (congrArg State.out heq) hev⟩
  cases j with
  | tm b cb => exact hother b cb fun ⟨hb, hcb⟩ => hj (hb ▸ hcb ▸ rfl)
  | tc b cb => exact lookupTc_congr (congrArg State.tc heq) b cb
  | sb b => exact lookupSb_congr (congrArg State.sb heq) b
  | gb b => exact lookupGb_congr (congrArg State.gb heq) b

theorem ChangesSb.actsOn {r : Option SbRec} (h : ChangesSb u t a r ev) (hk : a = a')
    (hev : TerminalOf (.sb a) r.isSome ev) : ActsOn (some (.sb a')) u t := by
  subst hk
  obtain ⟨rfl, hother, heq⟩ := h
  refine ⟨by rw [heq]; exact ⟨rfl, rfl, rfl, rfl, rfl, rfl⟩, transfersOn_of_changes (fun j hj => ?_)
    (by rw [heq]) (by rw [heq]) (congrArg State.out heq) hev⟩
  cases j with
  | sb b => exact hother b fun hb => hj (hb ▸ rfl)
  | tc b cb => exact lookupTc_congr (congrArg State.tc heq) b cb
  | tm b cb => exact lookupTm_congr (congrArg State.tm heq) b cb
  | gb b => exact lookupGb_congr (congrArg State.gb heq) b

theorem ChangesGb.actsOn {r : Option GbRec} (h : ChangesGb u t a r ev) (hk : a = a')
    (hev : TerminalOf (.gb a) r.isSome ev) : ActsOn (some (.gb a')) u t := by
  subst hk
  obtain ⟨rfl, hother, heq⟩ := h
  refine ⟨by rw [heq]; exact ⟨rfl, rfl, rfl, rfl, rfl, rfl⟩, transfersOn_of_changes (fun j hj => ?_)
    (by rw [heq]) (by rw [heq]) (congrArg State.out heq) hev⟩
  cases j with
  | gb b => exact hother b fun hb => hj (hb ▸ rfl)
  | tc b cb => exact lookupTc_congr (congrArg State.tc heq) b cb
  | tm b cb => exact lookupTm_congr (congrArg State.tm heq) b cb
  | sb b => exact lookupSb_congr (congrArg State.sb heq) b

theorem HandsOffTc.actsOn {r : TcRec} (h : HandsOffTc u t r) (hk : r.address = a ∧ r.channel = ch) :
    ActsOn (some (.tc a ch)) u t :=
  of_ite_prop h (fun h => (h.actsOn hk .live).of_afterSend) fun h => (h.actsOn hk (.gone rfl)).of_afterSend

theorem RetriesTc.actsOn {r : TcRec} (h : RetriesTc u t r) (hk : r.address = a ∧ r.channel = ch) :
    ActsOn (some (.tc a ch)) u t :=
  of_ite_prop h (ChangesTc.actsOn · hk (.gone rfl)) (HandsOffTc.actsOn · hk)

theorem HandsOffTm.actsOn {r : TmRec} (h : HandsOffTm u t r) (hk : r.address = a ∧ r.channel = ch) :
    ActsOn (some (.tm a ch)) u t :=
  of_ite_prop h (fun h => (h.actsOn hk .live).of_afterSend) fun h => (h.actsOn hk (.gone rfl)).of_afterSend

theorem RetriesTm.actsOn {r : TmRec} (h : RetriesTm u t r) (hk : r.address = a ∧ r.channel = ch) :
    ActsOn (some (.tm a ch)) u t :=
  of_ite_prop h (ChangesTm.actsOn · hk (.gone rfl)) (HandsOffTm.actsOn · hk)

theorem FailsSb.actsOn {r : SbRec} {kind : SbKind} (h : FailsSb u t r kind) (hk : r.address = a) :
    ActsOn (some (.sb a)) u t := ChangesSb.actsOn h hk (.gone rfl)

theorem HandsOffSb.actsOn {r : SbRec} {f : LogicalFrame} {tx : SbTx} {kind : SbKind} (h : HandsOffSb u t r f tx kind)
    (hk : r.address = a) : ActsOn (some (.sb a)) u t :=
  of_ite_prop h (fun h => (h.actsOn hk .live).of_afterSend) fun h => (FailsSb.actsOn h hk).of_afterSend

theorem RetriesSbRequest.actsOn {r : SbRec} (h : RetriesSbRequest u t r) (hk : r.address = a) :
    ActsOn (some (.sb a)) u t :=
  of_ite_prop h (FailsSb.actsOn · hk) (HandsOffSb.actsOn · hk)

theorem RetriesSbStatus.actsOn {r : SbRec} (h : RetriesSbStatus u t r) (hk : r.address = a) :
    ActsOn (some (.sb a)) u t :=
  of_ite_prop h (FailsSb.actsOn · hk) (HandsOffSb.actsOn · hk)

theorem FailsGb.actsOn {r : GbRec} {kind : GbKind} (h : FailsGb u t r kind) (hk : r.address = a) :
    ActsOn (some (.gb a)) u t := ChangesGb.actsOn h hk (.gone rfl)

theorem HandsOffGb.actsOn {r : GbRec} {f : LogicalFrame} {tx : GbTx} {kind : GbKind} (h : HandsOffGb u t r f tx kind)
    (hk : r.address = a) : ActsOn (some (.gb a)) u t :=
  of_ite_prop h (fun h => (h.actsOn hk .live).of_afterSend) fun h => (FailsGb.actsOn h hk).of_afterSend

theorem RetriesGbRequest.actsOn {r : GbRec} (h : RetriesGbRequest u t r) (hk : r.address = a) :
    ActsOn (some (.gb a)) u t :=
  of_ite_prop h (FailsGb.actsOn · hk) (HandsOffGb.actsOn · hk)

theorem RetriesGbStart.actsOn {r : GbRec} (h : RetriesGbStart u t r) (hk : r.address = a) :
    ActsOn (some (.gb a)) u t :=
  of_ite_prop h (FailsGb.actsOn · hk) (HandsOffGb.actsOn · hk)

theorem RetriesGbAbort.actsOn {r : GbRec} (h : RetriesGbAbort u t r) (hk : r.address = a) :
    ActsOn (some (.gb a)) u t :=
  of_ite_prop h (FailsGb.actsOn · hk) (HandsOffGb.actsOn · hk)
end

/-! ### The record that a handler finds -/

section
variable {s : State} {a ch : Byte} {α : Type} {d : α} {P : α → Prop}

theorem forTc_ind {c : TcRec → Prop} [DecidablePred c] {g : TcRec → α}
    (hg : ∀ r : TcRec, r.address = a ∧ r.channel = ch → P (g r)) (hd : P d) : P (forRecord (s.lookupTc a ch) c g d) :=
  forRecord_ind (fun r hl _ => hg r (lookupTc_key hl)) hd

theorem forTm_ind {c : TmRec → Prop} [DecidablePred c] {g : TmRec → α}
    (hg : ∀ r : TmRec, r.address = a ∧ r.channel = ch → P (g r)) (hd : P d) : P (forRecord (s.lookupTm a ch) c g d) :=
  forRecord_ind (fun r hl _ => hg r (lookupTm_key hl)) hd

theorem forSb_ind {c : SbRec → Prop} [DecidablePred c] {g : SbRec → α}
    (hg : ∀ r : SbRec, r.address = a → P (g r)) (hd : P d) : P (forRecord (s.lookupSb a) c g d) :=
  forRecord_ind (fun r hl _ => hg r (lookupSb_key hl)) hd

theorem forGb_ind {c : GbRec → Prop} [DecidablePred c] {g : GbRec → α}
    (hg : ∀ r : GbRec, r.address = a → P (g r)) (hd : P d) : P (forRecord (s.lookupGb a) c g d) :=
  forRecord_ind (fun r hl _ => hg r (lookupGb_key hl)) hd
end

/-! ### Telecommand and telemetry: R340 to R360 -/

section
variable {s : State} {a ch : Byte}

theorem tcRequestSent_actsOn : ActsOn (some (.tc a ch)) s (s.tcRequestSent a ch) :=
  tcRequestSent_eq s a ch ▸
    forTc_ind (fun _ hk => (putTc_changes s _).actsOn hk .live) (.refl _ s)

theorem tcRequestError_actsOn : ActsOn (some (.tc a ch)) s (s.tcRequestError a ch) :=
  tcRequestError_eq s a ch ▸
    forTc_ind (fun r hk => (failTc_changes s r _).actsOn hk (.gone rfl)) (.refl _ s)

theorem tcOnAck_actsOn : ActsOn (some (.tc a ch)) s (s.tcOnAck a ch) :=
  tcOnAck_eq s a ch ▸
    forTc_ind (fun _ hk => (endTransfer_tc s _ _ _).actsOn hk (.gone rfl)) (.refl _ s)

theorem tcOnNack_actsOn : ActsOn (some (.tc a ch)) s (s.tcOnNack a ch) :=
  tcOnNack_eq s a ch ▸ forTc_ind (fun _ hk => (tcRetry_retries s _).actsOn hk) (.refl _ s)

theorem wdFireTc_actsOn : Ensures (ActsOn (some (.tc a ch)) s) (execWdFireTc a ch s) :=
  execWdFireTc_eq s a ch ▸
    ensures_next (forTc_ind (fun _ hk => (tcRetry_retries s _).actsOn hk) (.refl _ s))

theorem tmRequestSent_actsOn : ActsOn (some (.tm a ch)) s (s.tmRequestSent a ch) :=
  tmRequestSent_eq s a ch ▸
    forTm_ind (fun _ hk => (putTm_changes s _).actsOn hk .live) (.refl _ s)

theorem tmRequestError_actsOn : ActsOn (some (.tm a ch)) s (s.tmRequestError a ch) :=
  tmRequestError_eq s a ch ▸
    forTm_ind (fun r hk => (failTm_changes s r _).actsOn hk (.gone rfl)) (.refl _ s)

theorem tmOnAck_actsOn (d : List Byte) : ActsOn (some (.tm a ch)) s (s.tmOnAck a ch d) :=
  tmOnAck_eq s a ch d ▸
    forTm_ind (fun _ hk => (endTransfer_tm s _ _ _).actsOn hk (.gone rfl)) (.refl _ s)

theorem tmOnNack_actsOn : ActsOn (some (.tm a ch)) s (s.tmOnNack a ch) :=
  tmOnNack_eq s a ch ▸ forTm_ind (fun _ hk => (tmRetry_retries s _).actsOn hk) (.refl _ s)

theorem wdFireTm_actsOn : Ensures (ActsOn (some (.tm a ch)) s) (execWdFireTm a ch s) :=
  execWdFireTm_eq s a ch ▸
    ensures_next (forTm_ind (fun _ hk => (tmRetry_retries s _).actsOn hk) (.refl _ s))
end

/-! ### Set block: R380 to R426 -/

section
variable {s : State} {r : SbRec} {a : Byte} (hk : r.address = a)
include hk

theorem sbSendTransfer_actsOn (k : Nat) : Ensures (ActsOn (some (.sb a)) s) (s.sbSendTransfer r k) :=
  ensures_checked fun f => ensures_next ((sbHandOff_handsOff s r f _ _).actsOn hk)

theorem sbRetryAbort_actsOn : Ensures (ActsOn (some (.sb a)) s) (s.sbRetryAbort r) :=
  ensures_ite (fun _ => ensures_checked fun _ => ensures_next ((failSb_changes s r _).actsOn hk))
    fun _ => ensures_next ((sbHandOff_handsOff s r _ _ _).actsOn hk)

theorem sbProceed_actsOn (missing : Option Nat) : Ensures (ActsOn (some (.sb a)) s) (s.sbProceed r missing) := by
  cases missing with
  | none => exact ensures_next ((putSb_changes s _).actsOn hk .live)
  | some k => exact sbSendTransfer_actsOn hk k

theorem sbMarkSent_actsOn (k : Nat) : Ensures (ActsOn (some (.sb a)) s) (s.sbMarkSent k r) :=
  ensures_checked fun bitmap => ensures_checked (sbProceed_actsOn (r := { r with bitmap := bitmap }) hk)

theorem sbAcked_actsOn (rx : BlkRx) : Ensures (ActsOn (some (.sb a)) s) (s.sbAcked r rx) := by
  cases rx with
  | waitingForRequestAck => exact sbSendTransfer_actsOn (r := { r with wd := .idle, rx := .idle }) hk 0
  | waitingForAbortAck =>
    refine ensures_checked fun ok => ensures_next ?_
    cases ok with
    | true => exact (endTransfer_sb s r.address _).actsOn hk (.gone rfl)
    | false => exact (failSb_changes s r _).actsOn hk
  | idle | waitingForData => exact actsOn_self

theorem sbNacked_actsOn (rx : BlkRx) : Ensures (ActsOn (some (.sb a)) s) (s.sbNacked r rx) := by
  cases rx with
  | waitingForRequestAck => exact ensures_next ((sbRetryRequest_retries s _).actsOn hk)
  | waitingForData => exact ensures_next ((sbRetryStatus_retries s _).actsOn hk)
  | waitingForAbortAck => exact ensures_checked fun _ => ensures_next ((failSb_changes s r _).actsOn hk)
  | idle => exact actsOn_self

theorem sbReportBranch_actsOn : Ensures (ActsOn (some (.sb a)) s) (s.sbReportBranch r) := by
  have habort : Ensures (ActsOn (some (.sb a)) s) (.next (s.sbSendAbort r)) :=
    ensures_next ((sbHandOff_handsOff s r _ _ _).actsOn hk)
  refine ensures_checked fun missing => ensures_ite (fun _ => habort) fun _ => ensures_ite (fun _ => habort) fun _ => ?_
  have hproceed := sbProceed_actsOn (s := s) (r := { r with reportRetryCount := r.reportRetryCount + 1 }) hk missing
  cases missing <;> exact hproceed

theorem sbWatchdogRetry_actsOn (w : WatchdogDispatch) (rx : BlkRx) :
    Ensures (ActsOn (some (.sb a)) s) (s.sbWatchdogRetry r w rx) := by
  have hstatus := (sbRetryStatus_retries s r).actsOn hk
  cases w with
  | literal => exact ensures_next hstatus
  | perState =>
    cases rx with
    | waitingForRequestAck => exact ensures_next ((sbRetryRequest_retries s r).actsOn hk)
    | waitingForData => exact ensures_next hstatus
    | waitingForAbortAck | idle => exact sbRetryAbort_actsOn hk
end

section
variable {s : State} {a : Byte}

theorem sbRequestSent_actsOn : ActsOn (some (.sb a)) s (s.sbRequestSent a) :=
  sbRequestSent_eq s a ▸ forSb_ind (fun _ hk => (putSb_changes s _).actsOn hk .live) (.refl _ s)

theorem sbStatusSent_actsOn : ActsOn (some (.sb a)) s (s.sbStatusSent a) :=
  sbStatusSent_eq s a ▸ forSb_ind (fun _ hk => (putSb_changes s _).actsOn hk .live) (.refl _ s)

theorem sbAbortSent_actsOn : ActsOn (some (.sb a)) s (s.sbAbortSent a) :=
  sbAbortSent_eq s a ▸ forSb_ind (fun _ hk => (putSb_changes s _).actsOn hk .live) (.refl _ s)

theorem sbFrameError_actsOn (tx : SbTx) (kind : SbKind) : ActsOn (some (.sb a)) s (s.sbFrameError a tx kind) :=
  sbFrameError_eq s a tx kind ▸
    forSb_ind (fun r hk => (failSb_changes s r kind).actsOn hk) (.refl _ s)

theorem sbTransferSent_actsOn (q : Seq) : Ensures (ActsOn (some (.sb a)) s) (s.sbTransferSent a q) :=
  sbTransferSent_eq s a q ▸ forSb_ind (fun _ hk => sbMarkSent_actsOn hk _) actsOn_self

theorem sbOnAck_actsOn (n : Seq) (d : List Byte) : Ensures (ActsOn (some (.sb a)) s) (s.sbOnAck a n d) :=
  sbOnAck_eq s a n d ▸ forSb_ind (fun _ hk => sbAcked_actsOn hk _) actsOn_self

theorem sbOnNack_actsOn (n : Seq) (d : List Byte) : Ensures (ActsOn (some (.sb a)) s) (s.sbOnNack a n d) :=
  sbOnNack_eq s a n d ▸ forSb_ind (fun _ hk => sbNacked_actsOn hk _) actsOn_self

theorem sbOnReport_actsOn (done : Bool) (d : List Byte) : Ensures (ActsOn (some (.sb a)) s) (s.sbOnReport a done d) :=
  sbOnReport_eq s a done d ▸
    forSb_ind (fun r hk =>
      sbReportBranch_actsOn (r := { r with wd := .idle, rx := .idle, bitmap := d, done := done }) hk)
      actsOn_self

theorem wdFireSb_actsOn : Ensures (ActsOn (some (.sb a)) s) (execWdFireSb a s) :=
  execWdFireSb_eq s a ▸
    forSb_ind (fun r hk =>
      sbWatchdogRetry_actsOn (r := { r with wd := .idle, rx := .idle }) hk _ _) actsOn_self

theorem rdFireSb_actsOn : Ensures (ActsOn (some (.sb a)) s) (execRdFireSb a s) :=
  execRdFireSb_eq s a ▸
    ensures_next (forSb_ind (fun _ hk => (sbHandOff_handsOff s _ _ _ _).actsOn hk) (.refl _ s))
end

/-! ### Get block: R440 to R477 -/

section
variable {s : State} {r : GbRec} {a : Byte} (hk : r.address = a)
include hk

theorem gbAcked_actsOn (rx : BlkRx) : ActsOn (some (.gb a)) s (s.gbAcked r rx) := by
  cases rx with
  | waitingForRequestAck => exact (gbHandOff_handsOff s _ _ _ _).actsOn hk
  | waitingForAbortAck =>
    refine (gbAbortAcked_ends s r).actsOn hk (.gone ?_)
    split <;> rfl
  | idle | waitingForData => exact .refl _ s

theorem gbNacked_actsOn (rx : BlkRx) : ActsOn (some (.gb a)) s (s.gbNacked r rx) := by
  cases rx with
  | waitingForRequestAck => exact (gbRetryRequest_retries s _).actsOn hk
  | waitingForData => exact (gbRetryStart_retries s _).actsOn hk
  | waitingForAbortAck => exact (failGb_changes s r _).actsOn hk
  | idle => exact .refl _ s

theorem gbAfterTransfer_actsOn : Ensures (ActsOn (some (.gb a)) s) (s.gbAfterTransfer r) :=
  ensures_checked fun _ => ensures_ite (fun _ => ensures_next ((gbHandOff_handsOff s _ _ _ _).actsOn hk))
    fun _ => ensures_next ((putGb_changes s _).actsOn hk .live)

theorem gbWatchdogRetry_actsOn (w : WatchdogDispatch) (rx : BlkRx) :
    ActsOn (some (.gb a)) s (s.gbWatchdogRetry r w rx) := by
  have hrequest := (gbRetryRequest_retries s r).actsOn hk
  cases w with
  | literal => exact hrequest
  | perState =>
    cases rx with
    | waitingForRequestAck => exact hrequest
    | waitingForData => exact (gbRetryStart_retries s r).actsOn hk
    | waitingForAbortAck | idle => exact (gbRetryAbort_retries s r).actsOn hk
end

section
variable {s : State} {a : Byte}

theorem gbRequestSent_actsOn : ActsOn (some (.gb a)) s (s.gbRequestSent a) :=
  gbRequestSent_eq s a ▸ forGb_ind (fun _ hk => (putGb_changes s _).actsOn hk .live) (.refl _ s)

theorem gbStartSent_actsOn : ActsOn (some (.gb a)) s (s.gbStartSent a) :=
  gbStartSent_eq s a ▸ forGb_ind (fun _ hk => (putGb_changes s _).actsOn hk .live) (.refl _ s)

theorem gbAbortSent_actsOn : ActsOn (some (.gb a)) s (s.gbAbortSent a) :=
  gbAbortSent_eq s a ▸ forGb_ind (fun _ hk => (putGb_changes s _).actsOn hk .live) (.refl _ s)

theorem gbFrameError_actsOn (tx : GbTx) (kind : GbKind) : ActsOn (some (.gb a)) s (s.gbFrameError a tx kind) :=
  gbFrameError_eq s a tx kind ▸
    forGb_ind (fun r hk => (failGb_changes s r kind).actsOn hk) (.refl _ s)

theorem gbOnAck_actsOn (n : Seq) (d : List Byte) : ActsOn (some (.gb a)) s (s.gbOnAck a n d) :=
  gbOnAck_eq s a n d ▸ forGb_ind (fun _ hk => gbAcked_actsOn hk _) (.refl _ s)

theorem gbOnNack_actsOn (n : Seq) (d : List Byte) : ActsOn (some (.gb a)) s (s.gbOnNack a n d) :=
  gbOnNack_eq s a n d ▸ forGb_ind (fun _ hk => gbNacked_actsOn hk _) (.refl _ s)

/-- Without the invariant the tests on the bitmap may fault, so `gbOnTransfer_eq` does not apply. -/
theorem gbOnTransfer_actsOn (q : Seq) (d : List Byte) : Ensures (ActsOn (some (.gb a)) s) (s.gbOnTransfer a q d) := by
  unfold State.gbOnTransfer
  split
  case h_1 r hl =>
    refine ensures_ite (fun _ => ensures_checked fun outstanding => ?_) fun _ => actsOn_self
    refine ensures_ite (fun _ => ?_) fun _ => actsOn_self
    have hk : r.address = a := lookupGb_key hl
    exact ensures_checked fun _ => ensures_checked fun _ => gbAfterTransfer_actsOn hk
  case h_2 => exact actsOn_self

theorem wdFireGb_actsOn : Ensures (ActsOn (some (.gb a)) s) (execWdFireGb a s) :=
  execWdFireGb_eq s a ▸
    ensures_next (forGb_ind (fun r hk =>
      gbWatchdogRetry_actsOn (r := { r with wd := .idle, rx := .idle }) hk _ _) (.refl _ s))
end

/-! ### Host commands: R340 to R493, R529 -/

section
variable {s : State} {k : Option Key}

theorem actsOn_unless {c : Prop} [Decidable c] {r : Result} (h : ¬c → Ensures (ActsOn k s) r) :
    Ensures (ActsOn k s) (if c then .next (s.giveBool false) else r) :=
  ensures_ite (fun _ => ensures_next ((ActsOn.refl k s).giveBool false)) h

/-- A valid command offers its frame, and the driver's answer decides what it does and answers. -/
theorem actsOn_offered {f : LogicalFrame} {taken refused : State} (ht : ActsOn k (s.afterSend f) taken)
    (hr : ActsOn k (s.afterSend f) refused) : Ensures (ActsOn k s)
      (if s.accepts then .next (taken.giveBool true) else .next (refused.giveBool false)) :=
  ensures_ite (fun _ => ensures_next (ht.of_afterSend.giveBool true))
    fun _ => ensures_next (hr.of_afterSend.giveBool false)

theorem sendTc_actsOn (a ch : Byte) (d : List Byte) (retry : Byte) :
    Ensures (ActsOn (some (.tc a ch)) s) (execSendTc a ch d retry s) := by
  refine actsOn_unless fun _ => actsOn_unless fun _ => actsOn_unless fun hl => actsOn_unless fun _ => ?_
  exact actsOn_offered ((putTc_changes _ _).actsOn ⟨rfl, rfl⟩ .live)
    ((emit_changesTc _ (by simpa using hl)).actsOn ⟨rfl, rfl⟩ (.gone rfl))

theorem receiveTm_actsOn (a ch retry : Byte) : Ensures (ActsOn (some (.tm a ch)) s) (execReceiveTm a ch retry s) := by
  refine actsOn_unless fun _ => actsOn_unless fun _ => actsOn_unless fun hl => ?_
  exact actsOn_offered ((putTm_changes _ _).actsOn ⟨rfl, rfl⟩ .live)
    ((emit_changesTm _ (by simpa using hl)).actsOn ⟨rfl, rfl⟩ (.gone rfl))

theorem sendBlock_actsOn (a : Byte) (v : Word64) (d : List Byte) (retry : Byte) (ms : Word32) (reportRetry : Byte) :
    Ensures (ActsOn (some (.sb a)) s) (execSendBlock a v d retry ms reportRetry s) := by
  refine actsOn_unless fun _ => actsOn_unless fun _ => actsOn_unless fun hl => actsOn_unless fun _ => ?_
  exact actsOn_offered ((putSb_changes _ _).actsOn rfl .live)
    ((emit_changesSb _ (by simpa using hl)).actsOn rfl (.gone rfl))

theorem receiveBlock_actsOn (a : Byte) (v : Word64) (n : Nat) (retry startRetry : Byte) :
    Ensures (ActsOn (some (.gb a)) s) (execReceiveBlock a v n retry startRetry s) := by
  refine actsOn_unless fun _ => actsOn_unless fun _ => actsOn_unless fun hl => actsOn_unless fun _ => ?_
  refine ensures_checked fun bitmap => ?_
  exact actsOn_offered ((putGb_changes _ _).actsOn rfl .live)
    ((emit_changesGb _ (by simpa using hl)).actsOn rfl (.gone rfl))

theorem sendTimeSync_actsOn (time : Word64) : Ensures (ActsOn k s) (execSendTimeSync time s) :=
  actsOn_unless fun _ => actsOn_offered (.refl k _) ((ActsOn.refl k _).output rfl)

theorem sendUnsolicited_actsOn (a ch : Byte) (d : List Byte) : Ensures (ActsOn k s) (execSendUnsolicited a ch d s) :=
  actsOn_unless fun _ => actsOn_unless fun _ => actsOn_offered (.refl k _) ((ActsOn.refl k _).output rfl)

/-! ### Received broadcasts: R293 to R296 -/

theorem keepaliveReceived_actsOn (b : Bus) (f ch : Byte) (d : List Byte) :
    Ensures (ActsOn k s) (keepaliveReceived b f ch d s) :=
  ensures_ite (fun _ => ensures_ite (fun _ => ensures_ite (fun _ => actsOn_emit rfl) fun _ => actsOn_emit rfl)
    fun _ => actsOn_emit rfl) fun _ => actsOn_self

theorem timesyncReceived_actsOn (b : Bus) (f : Byte) (d : List Byte) :
    Ensures (ActsOn k s) (timesyncReceived b f d s) :=
  ensures_ite (fun _ => actsOn_emit rfl) fun _ => actsOn_self
end

end Sys2Proof.Machine
end

section
/-! PROOFS. Every instruction acts on the one transfer it is correlated to (`touches`; R298, R299): a frame kind by its
handler when it is received and by the routing of its frame when it is confirmed, a notification as the frame kind it
carries. Start writes the registers besides (R520); Stop and CanBusSwitch abandon every transfer with no event (R300,
R307, R524). -/

namespace Sys2Proof.Machine

/-! ### Correlation: R298, R299 -/

theorem remoteNode_received {p : Port} (hn : p.notice = .received) (t f : Byte) : remoteNode p t f = f := by
  rw [remoteNode, hn]

theorem remoteNode_confirmed {p : Port} (hn : p.notice ≠ .received) (t f : Byte) : remoteNode p t f = t := by
  unfold remoteNode
  split
  · exact absurd ‹_› hn
  · rfl
  · rfl

/-- A frame kind touches the key that its frame is correlated to. -/
theorem touches_of_kindFrame {i : Instr} {p : Port} {f : LogicalFrame} (hf : kindFrame i = some f)
    (hp : i.port? = some p) : touches i = frameKey p f := by
  cases i with
  | tcRequest | tcAck | tcNack | tcReservedFt3 | tmRequest | tmAck | tmNack | tmReservedFt3 =>
    obtain rfl := Option.some.inj hf; obtain rfl := Option.some.inj hp
    simp [touches, frameKey, tcFrame, tmFrame]
  | sbRequest | sbTransfer | sbAck | sbAbort | sbNack | sbReservedFt5 | sbStatus | sbReport
  | gbRequest | gbReservedFt1 | gbAck | gbAbort | gbNack | gbReservedFt5 | gbStart | gbTransfer
  | unsol | keepalive | timesync | type6Reserved | type7Reserved =>
    obtain rfl := Option.some.inj hf; obtain rfl := Option.some.inj hp
    rfl
  | _ => cases hf

/-! ### Confirmations: R297 to R299 -/

section
variable {s : State} {p : Port} (hn : p.notice ≠ .received) (f : LogicalFrame)
include hn

theorem routeSent_actsOn : Ensures (ActsOn (frameKey p f) s) (s.routeSent f) := by
  unfold State.routeSent
  rw [frameKey, remoteNode_confirmed hn]
  cases TransferType.ofBits f.transferType with
  | timeSync | unsolicited => exact actsOn_emit rfl
  | telecommand =>
    cases TtFrameType.ofBits (ttFt f.command) with
    | request => exact ensures_next tcRequestSent_actsOn
    | ack | nack | reserved3 => exact actsOn_self
  | telemetry =>
    cases TtFrameType.ofBits (ttFt f.command) with
    | request => exact ensures_next tmRequestSent_actsOn
    | ack | nack | reserved3 => exact actsOn_self
  | setBlock =>
    cases SbFrameType.ofBits (blkFt f.command) with
    | request => exact ensures_next sbRequestSent_actsOn
    | transfer => exact sbTransferSent_actsOn _
    | status => exact ensures_next sbStatusSent_actsOn
    | abort => exact ensures_next sbAbortSent_actsOn
    | ack | nack | reserved5 | report => exact actsOn_self
  | getBlock =>
    cases GbFrameType.ofBits (blkFt f.command) with
    | request => exact ensures_next gbRequestSent_actsOn
    | start => exact ensures_next gbStartSent_actsOn
    | abort => exact ensures_next gbAbortSent_actsOn
    | ack | nack | reserved1 | reserved5 | transfer => exact actsOn_self
  | reserved6 | reserved7 => exact actsOn_self

theorem routeError_actsOn : Ensures (ActsOn (frameKey p f) s) (.next (s.routeError f)) := by
  unfold State.routeError
  rw [frameKey, remoteNode_confirmed hn]
  cases TransferType.ofBits f.transferType with
  | timeSync | unsolicited => exact actsOn_emit rfl
  | telecommand =>
    cases TtFrameType.ofBits (ttFt f.command) with
    | request => exact ensures_next tcRequestError_actsOn
    | ack | nack | reserved3 => exact actsOn_self
  | telemetry =>
    cases TtFrameType.ofBits (ttFt f.command) with
    | request => exact ensures_next tmRequestError_actsOn
    | ack | nack | reserved3 => exact actsOn_self
  | setBlock =>
    cases SbFrameType.ofBits (blkFt f.command) with
    | request | transfer | status | abort => exact ensures_next (sbFrameError_actsOn _ _)
    | ack | nack | reserved5 | report => exact actsOn_self
  | getBlock =>
    cases GbFrameType.ofBits (blkFt f.command) with
    | request | start | abort => exact ensures_next (gbFrameError_actsOn _ _)
    | ack | nack | reserved1 | reserved5 | transfer => exact actsOn_self
  | reserved6 | reserved7 => exact actsOn_self
end

section
variable {s : State} {i : Instr} {p : Port}

theorem actsOn_of_confirmed {f : LogicalFrame} (hf : kindFrame i = some f) (hp : i.port? = some p)
    (hn : p.notice ≠ .received) : Ensures (ActsOn (touches i) s) (exec i s) := by
  rw [touches_of_kindFrame hf hp, exec_of_confirmed hf hp hn, outgoingAt, atPort]
  split
  · exact actsOn_self
  · exact actsOn_confirm fun _ => routeSent_actsOn hn f
  · exact actsOn_confirm fun _ => routeError_actsOn hn f

/-! ### Received frames: R291 to R296 -/

theorem actsOn_response {k : Option Key} {a : Byte} {frame : LogicalFrame} {h : State → Result}
    (hn : p.notice = .received) (hh : Ensures (ActsOn k s) (h s)) :
    Ensures (ActsOn k s) (responseAt p a frame h s) := by
  rw [responseAt, atPort_received hn]
  exact ensures_receiveLocal (.refl k s) hh

theorem actsOn_of_received (hk : (kindFrame i).isSome = true) (hp : i.port? = some p) (hn : p.notice = .received) :
    Ensures (ActsOn (touches i) s) (exec i s) := by
  cases i with
  | tcRequest | tcReservedFt3 | tmRequest | tmReservedFt3 | sbRequest | sbTransfer | sbAbort | sbReservedFt5 | sbStatus
  | gbRequest | gbReservedFt1 | gbAbort | gbReservedFt5 | gbStart | type6Reserved | type7Reserved =>
    obtain rfl := Option.some.inj hp
    simp only [exec_tcRequest, exec_tcReservedFt3, exec_tmRequest, exec_tmReservedFt3, exec_sbRequest, exec_sbTransfer,
      exec_sbAbort, exec_sbReservedFt5, exec_sbStatus, exec_gbRequest, exec_gbReservedFt1, exec_gbAbort,
      exec_gbReservedFt5, exec_gbStart, exec_type6Reserved, exec_type7Reserved, atPort_received hn]
    exact actsOn_self
  | tcAck q t f ch d =>
    obtain rfl := Option.some.inj hp
    rw [exec_tcAck, touches, remoteNode_received hn]; exact actsOn_response hn (ensures_next tcOnAck_actsOn)
  | tcNack q t f ch d =>
    obtain rfl := Option.some.inj hp
    rw [exec_tcNack, touches, remoteNode_received hn]; exact actsOn_response hn (ensures_next tcOnNack_actsOn)
  | tmAck q t f ch d =>
    obtain rfl := Option.some.inj hp
    rw [exec_tmAck, touches, remoteNode_received hn]; exact actsOn_response hn (ensures_next (tmOnAck_actsOn d))
  | tmNack q t f ch d =>
    obtain rfl := Option.some.inj hp
    rw [exec_tmNack, touches, remoteNode_received hn]; exact actsOn_response hn (ensures_next tmOnNack_actsOn)
  | sbAck q t f n d =>
    obtain rfl := Option.some.inj hp
    rw [exec_sbAck, touches, remoteNode_received hn]; exact actsOn_response hn (sbOnAck_actsOn n d)
  | sbNack q t f n d =>
    obtain rfl := Option.some.inj hp
    rw [exec_sbNack, touches, remoteNode_received hn]; exact actsOn_response hn (sbOnNack_actsOn n d)
  | sbReport q t f done n d =>
    obtain rfl := Option.some.inj hp
    rw [exec_sbReport, touches, remoteNode_received hn]; exact actsOn_response hn (sbOnReport_actsOn done d)
  | gbAck q t f n d =>
    obtain rfl := Option.some.inj hp
    rw [exec_gbAck, touches, remoteNode_received hn]; exact actsOn_response hn (ensures_next (gbOnAck_actsOn n d))
  | gbNack q t f n d =>
    obtain rfl := Option.some.inj hp
    rw [exec_gbNack, touches, remoteNode_received hn]; exact actsOn_response hn (ensures_next (gbOnNack_actsOn n d))
  | gbTransfer q t f n d =>
    obtain rfl := Option.some.inj hp
    rw [exec_gbTransfer, touches, remoteNode_received hn]; exact actsOn_response hn (gbOnTransfer_actsOn n d)
  | unsol q t f ch d =>
    obtain rfl := Option.some.inj hp
    rw [exec_unsol, atPort_received hn]
    exact ensures_receiveLocal (.refl _ s) (actsOn_emit rfl)
  | keepalive q f ch d =>
    obtain rfl := Option.some.inj hp
    rw [exec_keepalive, atPort_received hn]
    exact keepaliveReceived_actsOn _ f ch d
  | timesync q f d =>
    obtain rfl := Option.some.inj hp
    rw [exec_timesync, atPort_received hn]
    exact timesyncReceived_actsOn _ f d
  | _ => cases hk

/-- A frame kind at a port: by its handler when it is received, by the routing of its frame when it is confirmed. -/
theorem actsOn_of_kind (hk : (kindFrame i).isSome = true) (hp : i.port? = some p) :
    Ensures (ActsOn (touches i) s) (exec i s) := by
  by_cases hn : p.notice = .received
  · exact actsOn_of_received hk hp hn
  · obtain ⟨f, hf⟩ := Option.isSome_iff_exists.1 hk
    exact actsOn_of_confirmed hf hp hn

/-- A received frame runs its kind, which touches what the frame does, or nothing when it decodes to none (R291). -/
theorem frameReceived_actsOn (b : Bus) (c : CanFrame) :
    Ensures (ActsOn (touches (.frameReceived b c)) s) (exec (.frameReceived b c) s) := by
  cases hdec : decode ⟨b, .received⟩ c with
  | error e => rw [exec_frameReceived_of_decode_error s hdec]; exact actsOn_self
  | ok i =>
    obtain ⟨-, -, hkind⟩ := decode_ok hdec
    obtain ⟨hport, -, mask, value, hrow, -⟩ := followsRow_of_decodeKind hkind
    rw [exec_frameReceived_of_decode s hdec, touches, ← touches_of_decode hdec]
    exact actsOn_of_kind (by rw [kindFrame_isSome, hrow]; rfl) hport

/-! ### Every instruction -/

/-- Every instruction but Start, Stop and CanBusSwitch acts on the transfer it is correlated to. -/
theorem exec_actsOn (ha : abandons i = false) (hstart : ∀ a ms cfg, i ≠ .start a ms cfg) :
    Ensures (ActsOn (touches i) s) (exec i s) := by
  cases i with
  | tcRequest | tcAck | tcNack | tcReservedFt3 | tmRequest | tmAck | tmNack | tmReservedFt3
  | sbRequest | sbTransfer | sbAck | sbAbort | sbNack | sbReservedFt5 | sbStatus | sbReport
  | gbRequest | gbReservedFt1 | gbAck | gbAbort | gbNack | gbReservedFt5 | gbStart | gbTransfer
  | unsol | keepalive | timesync | type6Reserved | type7Reserved => exact actsOn_of_kind rfl rfl
  | frameReceived b c => exact frameReceived_actsOn b c
  | frameSent b c => exact actsOn_confirm fun _ => routeSent_actsOn (p := ⟨b, .sent⟩) (by simp) _
  | sendError b c e => exact actsOn_confirm fun _ => routeError_actsOn (p := ⟨b, .sendError e⟩) (by simp) _
  | start a ms cfg => exact absurd rfl (hstart a ms cfg)
  | stop | canBusSwitch => cases ha
  | getActiveBus | getAddress => exact ensures_next ((ActsOn.refl _ s).output rfl)
  | sendTc a ch d retry => exact sendTc_actsOn a ch d retry
  | receiveTm a ch retry => exact receiveTm_actsOn a ch retry
  | sendBlock a v d retry ms reportRetry => exact sendBlock_actsOn a v d retry ms reportRetry
  | receiveBlock a v n retry startRetry => exact receiveBlock_actsOn a v n retry startRetry
  | sendTimeSync time => exact sendTimeSync_actsOn time
  | sendUnsolicited a ch d => exact sendUnsolicited_actsOn a ch d
  | wdFireTc a ch => exact wdFireTc_actsOn
  | wdFireTm a ch => exact wdFireTm_actsOn
  | wdFireSb a => exact wdFireSb_actsOn
  | wdFireGb a => exact wdFireGb_actsOn
  | rdFireSb a => exact rdFireSb_actsOn

/-- Start writes the registers and the drivers, and its one output is its result (R520, R523). -/
theorem start_transfersOn (a : Byte) (ms : Word32) (cfg : Settings) :
    Ensures (TransfersOn none s) (exec (.start a ms cfg) s) := by
  have hresult {t : State} (v : Bool) (hrec : ∀ j, SameRecord s t j) (hpending : t.pending = s.pending)
      (hparams : t.params = s.params) (hout : t.out = s.out ++ [.result (.bool v)]) : TransfersOn none s t :=
    transfersOn_of_same hrec hpending hparams hout fun _ _ => rfl
  have hrefused : Ensures (TransfersOn none s) (.next (s.giveBool false)) :=
    ensures_next (hresult false (sameRecord_of_registries rfl rfl rfl rfl) rfl rfl rfl)
  refine ensures_ite (fun _ => hrefused) fun _ => ?_
  cases cfg with
  | nonSerial => exact hrefused
  | serial nom red =>
    refine ensures_ite (fun _ => hrefused) fun _ => ensures_next ?_
    by_cases h : s.nominal.nextAnswer .nominal = true ∧ s.redundant.nextAnswer .redundant = true
    · rw [startWith_opened a ms nom red h.1 h.2]
      exact hresult true (sameRecord_of_registries rfl rfl rfl rfl) rfl rfl rfl
    · obtain ⟨n, d, heq, -, -⟩ := startWith_failed a ms nom red h
      rw [heq]
      exact hresult false (sameRecord_of_registries rfl rfl rfl rfl) rfl rfl rfl

theorem exec_transfersOn (ha : abandons i = false) : Ensures (TransfersOn (touches i) s) (exec i s) := by
  by_cases hstart : ∃ a ms cfg, i = .start a ms cfg
  · obtain ⟨a, ms, cfg, rfl⟩ := hstart
    exact start_transfersOn a ms cfg
  · exact (exec_actsOn ha fun a ms cfg h => hstart ⟨a, ms, cfg, h⟩).mono fun _ h => h.toTransfersOn

/-- Stop and CanBusSwitch clear the registries of a running engine with no output; a stopped one ignores them (R307). -/
theorem exec_of_abandons (ha : abandons i = true) :
    Ensures (fun t => t.out = s.out ∧ if s.running = true then ∀ k, t.live k = false else t = s) (exec i s) := by
  cases i with
  | stop | canBusSwitch =>
    refine ensures_ite (fun hr => ensures_next ?_) fun hr => ensures_next ?_
    · rw [if_pos hr]
      exact ⟨rfl, fun k => by cases k <;> rfl⟩
    · rw [if_neg hr]
      exact ⟨rfl, rfl⟩
  | _ => cases ha
end

/-- Settles O59: an instruction that abandons the transfers gives no output; any other acts on one transfer, whose
terminal event comes with its removal. -/
theorem oneTerminalEvent : Obligations.OneTerminalEvent := by
  intro s t i h
  cases ha : abandons i with
  | false => simpa using (exec_transfersOn ha t h).events
  | true =>
    obtain ⟨hout, hlive⟩ := exec_of_abandons ha t h
    refine ⟨[], by rw [hout, List.append_nil], fun k hk => ?_⟩
    by_cases hr : s.running = true
    · rw [if_pos hr] at hlive
      rw [if_pos ⟨rfl, hr⟩]
      exact ⟨hlive k, rfl⟩
    · rw [if_neg hr] at hlive
      rw [if_neg fun hc => hr hc.2, hlive, hk]
      rfl

/-- Settles O60: `exec_transfersOn` for every instruction, and `exec_actsOn` for what only Start changes. -/
theorem aStepTouchesOneRecord : Obligations.AStepTouchesOneRecord := by
  intro s t i h ha
  have htransfers := exec_transfersOn ha t h
  refine ⟨htransfers.records, htransfers.pending, htransfers.params, fun hstart => ?_⟩
  have hsetup := (exec_actsOn ha hstart t h).toSameSetup
  exact ⟨hsetup.address, hsetup.timeoutMs, hsetup.running, hsetup.activeBus, hsetup.nominal, hsetup.redundant⟩

end Sys2Proof.Machine
end
